-- ==== Sys2Proof/Word.lean ====
section
/-! DEFINITION. The two value widths of the block (00_scope.md section 5): `u8` and `u16`, unsigned; `+` on them wraps,
which is the `+8` of the spec on bytes. -/

namespace Sys2Proof

/-- `u8`, the unit of every port and buffer (R41). -/
abbrev Byte := BitVec 8

/-- `u16`, the width of the checksum accumulator (R14, R90). -/
abbrev Half := BitVec 16

end Sys2Proof
end

