-- ==== Sys2Proof/Config.lean ====
section
/-! DEFINITION. What an implementation fixes (00_scope.md R2 to R4), the shape of the external handlers' answers
(44_command_table.md R174), and the free values: constants with no body, of which no proof can know the value. The decided
values of the fields and the command table are in Machine/Parameters.lean. -/

namespace Sys2Proof

/-- The three forms of a length rule (R70). -/
inductive LenRule where
  | zero
  | exact (n : Nat)
  | gt0
  deriving DecidableEq, Repr

/-- The thirteen commands of the table (R69), in the order of opcode_table.json. -/
inductive Command where
  | nop | reset | txdata | txAbort | txPsr | getCfg | setCfg | saveCfg | cfgDefault | setFreq | getQueueDepth
  | readTxpwr | setTxpwr
  deriving DecidableEq, Repr

/-- Which reading of the checksum update is in force (92_eei_decisions.md D1, U15): the low byte adds the updated high
byte (`F`, the decided one) or the old one (`F_ALT`). -/
inductive ChecksumForm where
  | newHigh
  | oldHigh
  deriving DecidableEq, Repr

/-- The five error codes an error reply can carry (R77). -/
inductive ErrorKind where
  | invalidCmd | invalidLen | checksum | notImpl | internal
  deriving DecidableEq, Repr

/-- The configuration of one block: the constants of R2 and the parameters of R3, each a named field. No step writes it
(R26, R52). -/
structure Config where
  syncHi : Byte
  syncLo : Byte
  replyBit : Byte
  idErrInternal : Byte
  idReplyError : Byte
  idNop : Byte
  idReadTxpwr : Byte
  idSetTxpwr : Byte
  fend : Byte
  fesc : Byte
  tfend : Byte
  tfesc : Byte
  kissCmdData : Byte
  seed : Half
  maxPayload : Nat
  kissCap : Nat
  hasStatus : Bool
  errReplyCmd : Byte
  errInvalidCmd : Byte
  errInvalidLen : Byte
  errChecksum : Byte
  errNotImpl : Byte
  errInternal : Byte
  idReset : Byte
  idTxdata : Byte
  idTxAbort : Byte
  idTxPsr : Byte
  idGetCfg : Byte
  idSetCfg : Byte
  idSaveCfg : Byte
  idCfgDefault : Byte
  idSetFreq : Byte
  idGetQueueDepth : Byte
  idRxdata : Byte
  checksum : ChecksumForm
  deriving DecidableEq, Repr

/-- The handlers' own environment (R174): the `STATUS` byte (R23), the power level (R162), the queue (R172), the frequency in
hertz (R171) and the device configuration, whose layout the spec does not give (N11). Of the queue only its depth is kept, 16 bits
as R172 replies it, and no contents: what it holds is not in the spec (DESIGN CHOICE, log 25). -/
structure Env where
  status : Byte
  power : Half
  depth : Half
  freq : BitVec 32
  deviceCfg : List Byte
  deriving DecidableEq, Repr, Inhabited

/-- A reply payload: 0 to 255 bytes (R185). -/
abbrev Payload := {q : List Byte // q.length ≤ 255}

/-- What the external handler decides at one dispatch (R174, U11). Which parts take effect is the contract of the command
(Machine/Handlers.lean):
`env`, the environment it leaves; `replyStatus`, the value of `STATUS` when its reply is formatted (R184); `failure`, the
error it reports (R194, R195); `payload`, the payload of its success reply (none: no reply, log 24); `transmit`, whether
`TXDATA` transmits at once (R104); `tx`, the payloads of the KISS frames it puts on `KISS_TX` (R173: each item is `KENC(...)`);
`psr`, the payloads of the frames that carry `TX_PSR`'s test sequence (R166; none when it does not pass the encoder, log 23). -/
structure Response where
  env : Env
  replyStatus : Byte
  failure : Option ErrorKind
  payload : Option Payload
  transmit : Bool
  tx : List (List Byte)
  psr : List (List Byte)
  deriving DecidableEq, Repr, Inhabited

/-- Free value: the answer of the external handlers at the n-th dispatch for which State lists none (U11: parameter
`HANDLER`). Safe: nothing is known of it but R174's shape. Log 4. -/
opaque Config.freeResponse : Nat → Response

/-- Free value: what a byte of `PBUF` that nothing has written holds (R16, U8). Log 3. -/
opaque Config.freePbufByte : Nat → Byte

/-- Free value: what a byte of `KBUF` that nothing has written holds (R18, U8). Log 3. -/
opaque Config.freeKbufByte : Nat → Byte

end Sys2Proof
end

