-- ==== Sys2Proof/Machine/Parameters.lean ====
section
/-! DEFINITION. The decided values of the configuration (00_scope.md R2, R3; 92_eei_decisions.md D2 to D12), the one command
table (R4, R69) from which validity, length rules and dispatch are all read (R224), and the conditions a configuration must
meet before the rules hold (R222). -/

namespace Sys2Proof

/-- The values of R2's and R3's tables. -/
def Config.decided : Config where
  syncHi := 0xBE
  syncLo := 0xEF
  replyBit := 0x80
  idErrInternal := 0x7E
  idReplyError := 0x7F
  idNop := 0x00
  idReadTxpwr := 0x25
  idSetTxpwr := 0x26
  fend := 0xC0
  fesc := 0xDB
  tfend := 0xDC
  tfesc := 0xDD
  kissCmdData := 0x00
  seed := 0x0000
  maxPayload := 255
  kissCap := 256
  hasStatus := true
  errReplyCmd := 0xFF
  errInvalidCmd := 1
  errInvalidLen := 2
  errChecksum := 3
  errNotImpl := 4
  errInternal := 5
  idReset := 0x01
  idTxdata := 0x02
  idTxAbort := 0x03
  idTxPsr := 0x04
  idGetCfg := 0x05
  idSetCfg := 0x06
  idSaveCfg := 0x07
  idCfgDefault := 0x08
  idSetFreq := 0x09
  idGetQueueDepth := 0x0A
  idRxdata := 0x10
  checksum := .newHigh

/-- The width of `K.len` in bits: the smallest that holds `KISS_CAP` (R19). -/
def Config.kissLenBits (cfg : Config) : Nat := Nat.log2 cfg.kissCap + 1

/-- Every command, once. -/
def Command.all : List Command :=
  [.nop, .reset, .txdata, .txAbort, .txPsr, .getCfg, .setCfg, .saveCfg, .cfgDefault, .setFreq, .getQueueDepth,
    .readTxpwr, .setTxpwr]

/-- The length rule of each command (R69, R160 to R172). -/
def Command.lenRule : Command → LenRule
  | .nop => .zero
  | .reset => .zero
  | .txdata => .gt0
  | .txAbort => .zero
  | .txPsr => .zero
  | .getCfg => .zero
  | .setCfg => .gt0
  | .saveCfg => .zero
  | .cfgDefault => .zero
  | .setFreq => .exact 4
  | .getQueueDepth => .zero
  | .readTxpwr => .zero
  | .setTxpwr => .exact 2

/-- The `CMD` byte of each command (R69). -/
def Config.id (cfg : Config) : Command → Byte
  | .nop => cfg.idNop
  | .reset => cfg.idReset
  | .txdata => cfg.idTxdata
  | .txAbort => cfg.idTxAbort
  | .txPsr => cfg.idTxPsr
  | .getCfg => cfg.idGetCfg
  | .setCfg => cfg.idSetCfg
  | .saveCfg => cfg.idSaveCfg
  | .cfgDefault => cfg.idCfgDefault
  | .setFreq => cfg.idSetFreq
  | .getQueueDepth => cfg.idGetQueueDepth
  | .readTxpwr => cfg.idReadTxpwr
  | .setTxpwr => cfg.idSetTxpwr

/-- The number of each error code (R77). -/
def Config.errCode (cfg : Config) : ErrorKind → Byte
  | .invalidCmd => cfg.errInvalidCmd
  | .invalidLen => cfg.errInvalidLen
  | .checksum => cfg.errChecksum
  | .notImpl => cfg.errNotImpl
  | .internal => cfg.errInternal

/-- The command whose `CMD` byte is `b`, if there is one: the lookup in `CMDTAB` (R4). -/
def Config.command? (cfg : Config) (b : Byte) : Option Command :=
  Command.all.find? fun c => cfg.id c == b

/-- `CMDTAB` itself: the partial map from a command id to its length rule (R4). -/
def Config.cmdtab (cfg : Config) (b : Byte) : Option LenRule :=
  (cfg.command? b).map Command.lenRule

/-- The condition `l <= MAX_PAYLOAD` for the one length an EXACT rule admits (R140's last sentence). -/
def LenRule.fits (maxPayload : Nat) : LenRule → Bool
  | .zero => true
  | .exact n => n ≤ maxPayload
  | .gt0 => true

/-- R4: a request id has bit 7 clear and is neither reserved id. -/
def Config.requestId (cfg : Config) (b : Byte) : Bool :=
  !b.getLsbD 7 && b ≠ cfg.idErrInternal && b ≠ cfg.idReplyError

/-- R4: the command table is well formed. -/
def Config.tableOk (cfg : Config) : Bool :=
  (Command.all.map cfg.id).Nodup ∧ Command.all.all (fun c => cfg.requestId (cfg.id c)) ∧
    cfg.idNop = 0x00 ∧ cfg.idReadTxpwr = 0x25 ∧ cfg.idSetTxpwr = 0x26

/-- R222 (3), R3, R140: the two sizes. -/
def Config.sizesOk (cfg : Config) : Bool :=
  1 ≤ cfg.maxPayload ∧ cfg.maxPayload ≤ 255 ∧ cfg.maxPayload < cfg.kissCap ∧
    Command.all.all (fun c => c.lenRule.fits cfg.maxPayload)

/-- R222 (4): sync bytes distinct, the four KISS bytes pairwise different; and `KISS_CMD_DATA` needs no escape (R100). -/
def Config.bytesOk (cfg : Config) : Bool :=
  cfg.syncHi ≠ cfg.syncLo ∧ [cfg.fend, cfg.fesc, cfg.tfend, cfg.tfesc].Nodup ∧
    cfg.kissCmdData ≠ cfg.fend ∧ cfg.kissCmdData ≠ cfg.fesc

/-- R222 (6), R3: the five error codes are distinct and positive. -/
def Config.codesOk (cfg : Config) : Bool :=
  let codes := [cfg.errInvalidCmd, cfg.errInvalidLen, cfg.errChecksum, cfg.errNotImpl, cfg.errInternal]
  codes.Nodup ∧ codes.all (· ≠ 0)

/-- R2, R3: the reply bit is bit 7 and is set in the error reply's command byte, the checksum starts at zero, and `ID_RXDATA`
is a request-shaped id outside the table. -/
def Config.repliesOk (cfg : Config) : Bool :=
  cfg.replyBit = 0x80 ∧ cfg.errReplyCmd.getLsbD 7 = true ∧ cfg.seed = 0 ∧
    cfg.requestId cfg.idRxdata = true ∧ cfg.command? cfg.idRxdata = none

/-- What must hold of a configuration before the rules do (R222). -/
def Config.wf (cfg : Config) : Bool :=
  cfg.tableOk && cfg.sizesOk && cfg.bytesOk && cfg.codesOk && cfg.repliesOk

end Sys2Proof
end

