-- ==== Sys2Proof/Syntax.lean ====
section
/-! DEFINITION. Syntax: the instruction type, one constructor per row of opcode_table.json, and what the decoder reads. An
instruction of this block is one byte in its place (30_encoding.md R60, R72, 43_cmd_parser.md R130, 42_kiss_decode.md R110),
or one operation of a passive unit (R96, R102, R180 to R182). -/

namespace Sys2Proof

/-- The parser's state register (R10). -/
inductive ParserState where
  | sync0 | sync1 | cmd | len | payload | chkHi | chkLo
  deriving DecidableEq, Repr

/-- The 38 rows of the opcode table. -/
inductive Instr where
  /-- `CMD` byte of `NOP` (R160). -/
  | nop
  /-- `CMD` byte of `RESET` (R161). -/
  | reset
  /-- `CMD` byte of `TXDATA` (R164). -/
  | txdata
  /-- `CMD` byte of `TX_ABORT` (R165). -/
  | txAbort
  /-- `CMD` byte of `TX_PSR` (R166). -/
  | txPsr
  /-- `CMD` byte of `GET_CFG` (R167). -/
  | getCfg
  /-- `CMD` byte of `SET_CFG` (R168). -/
  | setCfg
  /-- `CMD` byte of `SAVE_CFG` (R169). -/
  | saveCfg
  /-- `CMD` byte of `CFG_DEFAULT` (R170). -/
  | cfgDefault
  /-- `CMD` byte of `SET_FREQ` (R171). -/
  | setFreq
  /-- `CMD` byte of `GET_QUEUE_DEPTH` (R172). -/
  | getQueueDepth
  /-- `CMD` byte of `READ_TXPWR` (R162). -/
  | readTxpwr
  /-- `CMD` byte of `SET_TXPWR` (R163). -/
  | setTxpwr
  /-- A `CMD` byte outside the table (R191). -/
  | invalidCmd (b : Byte)
  /-- A byte where the first sync byte is expected, or the first sync byte again in `SYNC1` (R131, R132). -/
  | syncHi (b : Byte)
  /-- A byte where the second sync byte is expected (R132). -/
  | syncLo (b : Byte)
  /-- The payload length byte (R134). -/
  | len (b : Byte)
  /-- A payload byte (R135). -/
  | payload (b : Byte)
  /-- The high checksum byte (R136). -/
  | chkhi (b : Byte)
  /-- The low checksum byte (R137). -/
  | chklo (b : Byte)
  /-- The success reply to id `c` with payload `q` (R180). -/
  | reply (c : BitVec 7) (q : List Byte)
  /-- The error reply with code `e` (R181). -/
  | errreply (e : Byte)
  /-- The received-data reply with payload `q` (R182). -/
  | rxreply (q : List Byte)
  /-- `FEND` on an empty buffer (R111). -/
  | fendPad
  /-- `FEND` that ends a frame (R112). -/
  | fendEnd
  /-- A byte of a frame that has failed (R113). -/
  | kdrop (b : Byte)
  /-- `TFEND` after `FESC` (R114). -/
  | tfend
  /-- `TFESC` after `FESC` (R114). -/
  | tfesc
  /-- Any other byte after `FESC` (R114). -/
  | badTransposed (b : Byte)
  /-- `FESC` (R115). -/
  | fesc
  /-- A literal byte (R116). -/
  | kdata (b : Byte)
  /-- The literal byte `KISS_CMD_DATA` as the first byte of a frame (R112, R116). -/
  | kissCmdData
  /-- Start of an encoded frame (R102 `KENC_START`). -/
  | kencOpen
  /-- Payload byte `FEND` to the encoder (R101). -/
  | kescFend
  /-- Payload byte `FESC` to the encoder (R101). -/
  | kescFesc
  /-- Any other payload byte to the encoder (R101). -/
  | kescLiteral (b : Byte)
  /-- End of an encoded frame (R102 `KENC_END`). -/
  | kencClose
  /-- One update of the checksum engine (R90). -/
  | f (acc : Half) (c : Byte)
  deriving DecidableEq, Repr

/-- One operation a step asks of a passive unit (R6: the encoders are called inside a step): a reply with the command byte as
transmitted and its operand bytes, an operation of the KISS encoder (R102), or one update of the checksum engine (R96). -/
inductive Call where
  | reply (c : Byte) (q : List Byte)
  | kencStart
  | kencByte (b : Byte)
  | kencEnd
  | engine (acc : Half) (c : Byte)
  deriving DecidableEq, Repr

/-- What the decoder reads: a byte and the state that selects its rule, or a unit operation.
`kissByte empty drop esc b`: `empty` says `K.len = 0` (R110's tests). -/
inductive Fetch where
  | cmdByte (st : ParserState) (b : Byte)
  | kissByte (empty drop esc : Bool) (b : Byte)
  | call (c : Call)
  deriving DecidableEq, Repr

/-- Why the decoder refuses a unit operation. No byte of either input stream is ever refused (R130, R72). -/
inductive Reject where
  /-- A reply whose command byte has the reply bit clear (R61: a reply has bit 7 set). -/
  | notAReply
  /-- A reply payload over 255 bytes (R185). -/
  | payloadTooLong
  /-- An error reply without exactly one operand byte (R181: length fixed at 1). -/
  | errorOperand
  deriving DecidableEq, Repr

end Sys2Proof
end

