-- ==== Sys2Proof/WellFormed.lean ====
section
/-! DEFINITION. Which terms of `Instr` stand for an encoding of the table under a configuration: the exclusions of
opcode_table.json's rows (30_encoding.md R69, R71, R72, R185). -/

namespace Sys2Proof

/-- The check of one instruction under a configuration. -/
def Instr.wf (cfg : Config) : Instr → Bool
  | .nop => true
  | .reset => true
  | .txdata => true
  | .txAbort => true
  | .txPsr => true
  | .getCfg => true
  | .setCfg => true
  | .saveCfg => true
  | .cfgDefault => true
  | .setFreq => true
  | .getQueueDepth => true
  | .readTxpwr => true
  | .setTxpwr => true
  | .invalidCmd b => (cfg.command? b).isNone
  | .syncHi _ => true
  | .syncLo b => b ≠ cfg.syncHi
  | .len _ => true
  | .payload _ => true
  | .chkhi _ => true
  | .chklo _ => true
  | .reply c q =>
    c.setWidth 8 ||| cfg.replyBit ≠ cfg.errReplyCmd ∧ c.setWidth 8 ≠ cfg.idRxdata ∧ q.length ≤ 255
  | .errreply _ => true
  | .rxreply q => cfg.idRxdata ||| cfg.replyBit ≠ cfg.errReplyCmd ∧ q.length ≤ 255
  | .fendPad => true
  | .fendEnd => true
  | .kdrop b => b ≠ cfg.fend
  | .tfend => true
  | .tfesc => true
  | .badTransposed b => b ≠ cfg.fend ∧ b ≠ cfg.tfend ∧ b ≠ cfg.tfesc
  | .fesc => true
  | .kdata b => b ≠ cfg.fend ∧ b ≠ cfg.fesc
  | .kissCmdData => true
  | .kencOpen => true
  | .kescFend => true
  | .kescFesc => true
  | .kescLiteral b => b ≠ cfg.fend ∧ b ≠ cfg.fesc
  | .kencClose => true
  | .f _ _ => true

end Sys2Proof
end

