-- ==== Sys2Proof/Decode.lean ====
section
/-! DEFINITION. The decoder, total on every byte in every place, the encoder written from the same tables
(opcode_table.json; 30_encoding.md R69, R72; 42_kiss_decode.md R110; 43_cmd_parser.md R130), and the reading of one table
word by its number alone. -/

namespace Sys2Proof

/-- The `CMD` byte instruction of each command. -/
def Command.instr : Command → Instr
  | .nop => .nop
  | .reset => .reset
  | .txdata => .txdata
  | .txAbort => .txAbort
  | .txPsr => .txPsr
  | .getCfg => .getCfg
  | .setCfg => .setCfg
  | .saveCfg => .saveCfg
  | .cfgDefault => .cfgDefault
  | .setFreq => .setFreq
  | .getQueueDepth => .getQueueDepth
  | .readTxpwr => .readTxpwr
  | .setTxpwr => .setTxpwr

/-- The bytes an instruction's encoding shows: the stream byte, the command byte and operands of a reply, the payload byte of
the KISS encoder, the engine's two inputs high byte first. -/
def Fetch.bytes : Fetch → List Byte
  | .cmdByte _ b => [b]
  | .kissByte _ _ _ b => [b]
  | .call (.reply c q) => c :: q
  | .call .kencStart => []
  | .call (.kencByte b) => [b]
  | .call .kencEnd => []
  | .call (.engine acc c) => [acc.extractLsb' 8 8, acc.extractLsb' 0 8, c]

/-- A byte of `CMD_RX` by parser state (R130). In `SYNC1` the first sync byte again is the table's `SYNC_HI` row. -/
def decodeCmdByte (cfg : Config) (b : Byte) : ParserState → Instr
  | .sync0 => .syncHi b
  | .sync1 => if b = cfg.syncHi then .syncHi b else .syncLo b
  | .cmd =>
    match cfg.command? b with
    | some c => c.instr
    | none => .invalidCmd b
  | .len => .len b
  | .payload => .payload b
  | .chkHi => .chkhi b
  | .chkLo => .chklo b

/-- A byte of `KISS_RX` by decoder state, the tests in R110's order. A literal `KISS_CMD_DATA` on an empty buffer is the
table's row of that name. -/
def decodeKissByte (cfg : Config) (empty drop esc : Bool) (b : Byte) : Instr :=
  if b = cfg.fend then (if empty then .fendPad else .fendEnd)
  else if drop then .kdrop b
  else if esc then
    (if b = cfg.tfend then .tfend else if b = cfg.tfesc then .tfesc else .badTransposed b)
  else if b = cfg.fesc then .fesc
  else if empty && b = cfg.kissCmdData then .kissCmdData
  else .kdata b

/-- A unit operation (R101, R102, R180 to R182, R90). The command byte of a reply selects its row; `ERR_REPLY_CMD` and
`ID_RXDATA | 0x80` are excluded from `REPLY` (opcode_table.json). The command byte `0xFE` of the reserved id `0x7E` reads as an
ordinary `REPLY`: no step of the block asks for it (D22), and what the encoder does if asked is the model's choice
(DESIGN CHOICE, log 7). -/
def decodeCall (cfg : Config) : Call → Except Reject Instr
  | .reply c q =>
    if c &&& cfg.replyBit = 0 then .error .notAReply
    else if c = cfg.errReplyCmd then
      (match q with
        | [e] => .ok (.errreply e)
        | _ => .error .errorOperand)
    else if 255 < q.length then .error .payloadTooLong
    else if c = cfg.idRxdata ||| cfg.replyBit then .ok (.rxreply q)
    else .ok (.reply (c.setWidth 7) q)
  | .kencStart => .ok .kencOpen
  | .kencByte b =>
    .ok (if b = cfg.fend then .kescFend else if b = cfg.fesc then .kescFesc else .kescLiteral b)
  | .kencEnd => .ok .kencClose
  | .engine acc c => .ok (.f acc c)

/-- The decoder. -/
def decode (cfg : Config) : Fetch → Except Reject Instr
  | .cmdByte st b => .ok (decodeCmdByte cfg b st)
  | .kissByte empty drop esc b => .ok (decodeKissByte cfg empty drop esc b)
  | .call c => decodeCall cfg c

/-- The encoder: the place and the bytes of an instruction. For a row whose place admits several decoder states, one of
them. -/
def encode (cfg : Config) : Instr → Fetch
  | .nop => .cmdByte .cmd (cfg.id .nop)
  | .reset => .cmdByte .cmd (cfg.id .reset)
  | .txdata => .cmdByte .cmd (cfg.id .txdata)
  | .txAbort => .cmdByte .cmd (cfg.id .txAbort)
  | .txPsr => .cmdByte .cmd (cfg.id .txPsr)
  | .getCfg => .cmdByte .cmd (cfg.id .getCfg)
  | .setCfg => .cmdByte .cmd (cfg.id .setCfg)
  | .saveCfg => .cmdByte .cmd (cfg.id .saveCfg)
  | .cfgDefault => .cmdByte .cmd (cfg.id .cfgDefault)
  | .setFreq => .cmdByte .cmd (cfg.id .setFreq)
  | .getQueueDepth => .cmdByte .cmd (cfg.id .getQueueDepth)
  | .readTxpwr => .cmdByte .cmd (cfg.id .readTxpwr)
  | .setTxpwr => .cmdByte .cmd (cfg.id .setTxpwr)
  | .invalidCmd b => .cmdByte .cmd b
  | .syncHi b => .cmdByte .sync0 b
  | .syncLo b => .cmdByte .sync1 b
  | .len b => .cmdByte .len b
  | .payload b => .cmdByte .payload b
  | .chkhi b => .cmdByte .chkHi b
  | .chklo b => .cmdByte .chkLo b
  | .reply c q => .call (.reply (c.setWidth 8 ||| cfg.replyBit) q)
  | .errreply e => .call (.reply cfg.errReplyCmd [e])
  | .rxreply q => .call (.reply (cfg.idRxdata ||| cfg.replyBit) q)
  | .fendPad => .kissByte true false false cfg.fend
  | .fendEnd => .kissByte false false false cfg.fend
  | .kdrop b => .kissByte true true false b
  | .tfend => .kissByte false false true cfg.tfend
  | .tfesc => .kissByte false false true cfg.tfesc
  | .badTransposed b => .kissByte false false true b
  | .fesc => .kissByte false false false cfg.fesc
  | .kdata b => .kissByte false false false b
  | .kissCmdData => .kissByte true false false cfg.kissCmdData
  | .kencOpen => .call .kencStart
  | .kescFend => .call (.kencByte cfg.fend)
  | .kescFesc => .call (.kencByte cfg.fesc)
  | .kescLiteral b => .call (.kencByte b)
  | .kencClose => .call .kencEnd
  | .f acc c => .call (.engine acc c)

/-- The place a bare table byte is read in: a table word carries no place, so each byte is given to the first row of the
table that its value fixes (log 12). `empty` is whether the KISS buffer is empty, for the rows that do not care. A reply's
operands are zeros: no payload, and for `ERRREPLY` one zero byte. -/
def tableFetch (cfg : Config) (empty : Bool) (b : Byte) : Fetch :=
  if (cfg.command? b).isSome then .cmdByte .cmd b
  else if b = cfg.syncHi then .cmdByte .sync0 b
  else if b = cfg.syncLo then .cmdByte .sync1 b
  else if b = cfg.errReplyCmd then .call (.reply b [0])
  else if b = cfg.fend then .kissByte true false false b
  else if b = cfg.tfend ∨ b = cfg.tfesc then .kissByte empty false true b
  else if b = cfg.fesc then .kissByte empty false false b
  else if b &&& cfg.replyBit = 0 then .cmdByte .cmd b
  else .call (.reply b [])

/-- What the decoder reads from a table word under the decided configuration. Every row of the table is one byte wide. -/
def decodeTableWord (nbits w : Nat) : Option Instr :=
  if nbits = 8 ∧ w < 256 then
    (decode Config.decided (tableFetch Config.decided true (BitVec.ofNat 8 w))).toOption
  else none

end Sys2Proof
end

