-- ==== Sys2Proof/Machine/State.lean ====
section
/-! DEFINITION. The state of the machine as plain data (10_state.md), the reasons a step can stop, and reset (R27, R220). -/

namespace Sys2Proof.Machine

/-- A buffer (R40): the bytes written so far as address and byte pairs, addresses strictly rising. An unlisted address has
not been written; what it reads as is in `Memory.readPbuf` and `Memory.readKbuf` (log 3). -/
abbrev Memory := List Host.Cell

/-- Parser state `P` (R10 to R16); `computed` is `P.calc`, a word Lean keeps for itself. -/
structure Parser where
  st : ParserState
  cmd : Byte
  len : Byte
  idx : Byte
  computed : Half
  rx : Half
  buf : Memory
  deriving DecidableEq, Repr

/-- KISS decoder state `K` (R18 to R21). `len` is the value of a register of `Config.kissLenBits` bits (R19, log 20). -/
structure Kiss where
  buf : Memory
  len : Nat
  esc : Bool
  drop : Bool
  deriving DecidableEq, Repr

/-- Why a KISS frame is dropped (R110, R197). -/
inductive KissError where
  | badCmd | badEsc | danglingEsc | overflow
  deriving DecidableEq, Repr

/-- The event a step returns (R110, R130). -/
inductive Event where
  | none
  | dispatch (cmd len : Byte) (payload : List Byte)
  | error (code : Byte)
  | rxframe (payload : List Byte)
  | kerr (reason : KissError)
  deriving DecidableEq, Repr

/-- One DISPATCH event as the external Dispatcher sees it (R7). -/
structure Dispatched where
  cmd : Byte
  len : Byte
  payload : List Byte
  deriving DecidableEq, Repr

/-- Whose move comes next: one of the two agents takes a byte (R6), or the outside changes the handlers' environment (log 8).
The encoders and the engine have no turn: they are called inside a step. -/
inductive Turn where
  | parser
  | decoder
  | outside (env : Env)
  deriving DecidableEq, Repr

/-- The state. `cfg` is the configuration, which no step writes (R26); `p`, `k` are the block's own state (R25); `env` is the
handlers' environment with `STATUS` (R23, R174); `cmdRx`, `kissRx`, `cmdTx`, `kissTx` are the streams (R40). The rest are the
model's own: the host's schedule `sched` (R50); `calls`, what the step in progress still asks of the passive units, empty
between steps (log 7); the handlers' coming answers `responses`, the counter `draws` of free answers, the last step's `event`,
the DISPATCH events so far `dispatches` (R7); and `engineOut`, the engine's output wire inside the block (R96, log 9). -/
structure State where
  cfg : Config
  p : Parser
  k : Kiss
  env : Env
  cmdRx : List Byte
  kissRx : List Byte
  sched : List Turn
  calls : List Call
  responses : List Response
  draws : Nat
  cmdTx : List Byte
  kissTx : List Byte
  event : Event
  dispatches : List Dispatched
  engineOut : Half
  deriving DecidableEq, Repr

/-- Why the machine stops with a fault. -/
inductive Fault where
  /-- A command id that is not in the table stands in `P.cmd` at a `LEN` or `CHKLO` byte: the fatal case of R175 and R199,
  unreachable with the one table. Raised by `execLen`, `execChklo`. Safe. -/
  | unlistedCommand
  /-- An index of `PBUF` at or above `MAX_PAYLOAD` (R40: no such byte exists); R17 rules it out in every reachable state.
  Raised by `execPayload`, `execChklo`. Safe. -/
  | pbufIndex
  /-- An index of `KBUF` at or above `KISS_CAP` (R40: no such byte exists); R22 rules it out in every reachable state. Raised
  by the append of `execTfend`, `execTfesc`, `execKdata`, `execKissCmdData` and by `execFendEnd`. Safe. -/
  | kbufIndex
  deriving DecidableEq, Repr

/-- Why an instruction is refused. -/
inductive Refusal where
  /-- An instruction that has no meaning yet, by its mnemonic. Raised by `exec` alone. Safe. -/
  | notModelled (mnemonic : String)
  /-- A reply whose payload is over 255 bytes, which has no format (R118, R185, U17: refuse, do not truncate). Raised by
  `execReply`, `execRxreply` and, when `KISS_CAP` exceeds 256, by `execFendEnd`. Safe. -/
  | replyTooLong
  /-- A unit operation the decoder refuses. Raised by `runCalls`; no byte of a stream is refused (R72, R130). Safe. -/
  | badCall (why : Reject)
  deriving DecidableEq, Repr

/-- `P` at reset (R27); no byte of `PBUF` has been written. -/
def Parser.reset : Parser :=
  { st := .sync0, cmd := 0, len := 0, idx := 0, computed := 0, rx := 0, buf := [] }

/-- `K` at reset (R27); no byte of `KBUF` has been written. -/
def Kiss.reset : Kiss :=
  { buf := [], len := 0, esc := false, drop := false }

/-- The environment the model starts with. DESIGN CHOICE, log 1: the spec gives no value of it (N9, N21). -/
def envAtReset : Env :=
  { status := 0, power := 0, depth := 0, freq := 0, deviceCfg := [] }

/-- A new instance of the block (R220) under a configuration, beside an environment that is the handlers' own. -/
def State.created (cfg : Config) (env : Env) : State :=
  { cfg := cfg, p := Parser.reset, k := Kiss.reset, env := env, cmdRx := [], kissRx := [], sched := [], calls := [],
    responses := [], draws := 0, cmdTx := [], kissTx := [], event := .none, dispatches := [], engineOut := 0 }

/-- The machine right after reset (R27, R220), under the decided configuration. -/
def State.reset : State :=
  State.created Config.decided envAtReset

/-- What the host does when a connection closes and a new one opens (R220, R206): the instance is discarded and a new one
created; the configuration is fixed at build time. The handlers are not the block's (R23: `STATUS` persists), so their
environment, their coming answers and the counter of free answers go on as they were; R206 leaves open what instances share of
the handlers (DESIGN CHOICE, log 6). A host move, no step. -/
def State.newInstance (s : State) : State :=
  { State.created s.cfg s.env with responses := s.responses, draws := s.draws }

end Sys2Proof.Machine
end

