-- ==== Sys2Proof/Machine/Flags.lean ====
section
/-! DEFINITION. The block's only flags, `K.esc` and `K.drop` (R20, R21), and the updates that carry them (42_kiss_decode.md).
No arithmetic flag exists (R90). -/

namespace Sys2Proof.Machine

/-- `K.esc <- v`. -/
def Kiss.setEsc (k : Kiss) (v : Bool) : Kiss := { k with esc := v }

/-- What a padding delimiter writes (R111): both flags cleared. -/
def Kiss.clearFlags (k : Kiss) : Kiss := { k with esc := false, drop := false }

/-- What the end of a frame writes (R112): buffer empty, both flags cleared. -/
def Kiss.clear (k : Kiss) : Kiss := { k with len := 0, esc := false, drop := false }

/-- What a decode error inside a frame writes (R114, R117): buffer empty, the rest of the frame to be dropped. -/
def Kiss.fail (k : Kiss) : Kiss := { k with len := 0, drop := true }

end Sys2Proof.Machine
end

