-- ==== Sys2Proof/Machine/Operands.lean ====
section
/-! DEFINITION. Operand forms: halves and concatenation of 16-bit values (00_scope.md section 5), the checksum field (R66),
big-endian payload operands (R44, R68), the reply command byte (R64), and the two validity tests (R139, R140). -/

namespace Sys2Proof.Machine

/-- `hi(v)` is `v[15:8]`. -/
def hi (v : Half) : Byte := v.extractLsb' 8 8

/-- `lo(v)` is `v[7:0]`. -/
def lo (v : Half) : Byte := v.extractLsb' 0 8

/-- `{h, l}` is `h*256 + l` (R66). -/
def cat (h l : Byte) : Half := BitVec.ofNat 16 (h.toNat * 256 + l.toNat)

/-- The value of a big-endian operand (R68). -/
def beValue (bs : List Byte) : Nat :=
  bs.foldl (fun v b => v * 256 + b.toNat) 0

/-- A 16-bit operand from its payload bytes (R162, R163). -/
def beHalf (bs : List Byte) : Half := BitVec.ofNat 16 (beValue bs)

/-- A 32-bit operand from its payload bytes (R171). -/
def beWord (bs : List Byte) : BitVec 32 := BitVec.ofNat 32 (beValue bs)

/-- The two payload bytes of a 16-bit value, high byte first (R44, R174). -/
def halfPayload (v : Half) : Payload := ⟨[hi v, lo v], by simp⟩

/-- The `LEN` byte of a sequence (R65). -/
def lenByte (q : List Byte) : Byte := BitVec.ofNat 8 q.length

/-- The command byte of a reply to id `c`: `c | REPLY_BIT` (R64, R180). -/
def replyCmd (cfg : Config) (c : Byte) : Byte := c ||| cfg.replyBit

/-- Whether a length rule admits a length (R70). -/
def LenRule.admits (l : Byte) : LenRule → Bool
  | .zero => l = 0
  | .exact n => l.toNat = n
  | .gt0 => 0 < l.toNat

/-- `VALID_CMD(c)` (R139). -/
def validCmd (cfg : Config) (b : Byte) : Bool := (cfg.cmdtab b).isSome

/-- `VALID_LEN(c, l)` (R140): the bound `MAX_PAYLOAD`, then the command's length rule. -/
def validLen (cfg : Config) (c : Command) (l : Byte) : Bool :=
  decide (l.toNat ≤ cfg.maxPayload) && LenRule.admits l c.lenRule

end Sys2Proof.Machine
end

