-- ==== Sys2Proof/Machine/Checksum.lean ====
section
/-! DEFINITION. The Checksum Engine (40_checksum.md): one-byte update and its fold. The carries out of both adders are
dropped; there is no flag. -/

namespace Sys2Proof.Machine

/-- `F(acc, c)` (R90), or `F_ALT` when the configuration says so (92_eei_decisions.md D1). -/
def fStep (cfg : Config) (acc : Half) (c : Byte) : Half :=
  let h := hi acc + c
  match cfg.checksum with
  | .newHigh => cat h (lo acc + h)
  | .oldHigh => cat h (lo acc + hi acc)

/-- `FLETCHER(s)` (R91): the update folded from the seed. -/
def fletcher (cfg : Config) (s : List Byte) : Half :=
  s.foldl (fStep cfg) cfg.seed

end Sys2Proof.Machine
end

