-- ==== Sys2Proof/Machine/Frames.lean ====
section
/-! DEFINITION. The byte sequences of the wire: command frames (R60, R76), replies (R61, R180 to R183) and KISS frames
(R62, R100 to R102). -/

namespace Sys2Proof.Machine

/-- Sync bytes, a body, and the body's checksum high byte first (R60, R61, R43, R93). -/
def framed (cfg : Config) (body : List Byte) : List Byte :=
  [cfg.syncHi, cfg.syncLo] ++ body ++ [hi (fletcher cfg body), lo (fletcher cfg body)]

/-- `FRAME(cmd, p)` (R76). -/
def commandFrame (cfg : Config) (cmd : Byte) (p : List Byte) : List Byte :=
  framed cfg ([cmd, lenByte p] ++ p)

/-- The status byte at the head of a reply, when the reply shape has one (R3 `HAS_STATUS`, R67). -/
def statusHead (cfg : Config) (st : Byte) : List Byte :=
  if cfg.hasStatus then [st] else []

/-- The covered bytes of a success reply (R93, R180). -/
def replyBody (cfg : Config) (st c : Byte) (q : List Byte) : List Byte :=
  statusHead cfg st ++ [replyCmd cfg c, lenByte q] ++ q

/-- `REPLY(st, c, q)` (R180). -/
def replyFrame (cfg : Config) (st c : Byte) (q : List Byte) : List Byte :=
  framed cfg (replyBody cfg st c q)

/-- `ERRREPLY(st, e)` (R181). -/
def errReplyFrame (cfg : Config) (st e : Byte) : List Byte :=
  framed cfg (statusHead cfg st ++ [cfg.errReplyCmd, 0x01, e])

/-- `RXREPLY(st, q)` (R182). -/
def rxReplyFrame (cfg : Config) (st : Byte) (q : List Byte) : List Byte :=
  replyFrame cfg st cfg.idRxdata q

/-- R183's body loop: each byte is emitted and folded into the transient accumulator `E.acc` (R24). -/
def serialBody (cfg : Config) (acc : Half) : List Byte → List Byte × Half
  | [] => ([], acc)
  | x :: xs =>
    let rest := serialBody cfg (fStep cfg acc x) xs
    (x :: rest.1, rest.2)

/-- R183: a reply emitted byte by byte. -/
def serialEmit (cfg : Config) (body : List Byte) : List Byte :=
  let out := serialBody cfg cfg.seed body
  [cfg.syncHi, cfg.syncLo] ++ out.1 ++ [hi out.2, lo out.2]

/-- `KESC(b)` (R101). -/
def kesc (cfg : Config) (b : Byte) : List Byte :=
  if b = cfg.fend then [cfg.fesc, cfg.tfend]
  else if b = cfg.fesc then [cfg.fesc, cfg.tfesc]
  else [b]

/-- The bytes of `KENC_START` (R102). -/
def kencStart (cfg : Config) : List Byte := [cfg.fend, cfg.kissCmdData]

/-- The bytes of `KENC_END` (R102). -/
def kencEnd (cfg : Config) : List Byte := [cfg.fend]

/-- `KENC(p)` (R100). -/
def kenc (cfg : Config) (p : List Byte) : List Byte :=
  kencStart cfg ++ p.flatMap (kesc cfg) ++ kencEnd cfg

end Sys2Proof.Machine
end

