-- ==== Sys2Proof/Machine/Ops.lean ====
section
/-! DEFINITION. The named operations the meanings are made of: buffers (20_memory.md R46, R47), updates of single fields,
the parser reset (R138), the entry of a parser error (R201), the append of the KISS decoder (R117), the Reply Encoder's
emission (R183), and one answer of the external handlers (R174). -/

namespace Sys2Proof.Machine

/-- What is listed at an address: `none` when nothing has written it. -/
def Memory.get? : Memory → Nat → Option Byte
  | [], _ => none
  | (a, v) :: m, i => if a = i then some v else Memory.get? m i

/-- One byte written, in place of what stood there, addresses kept strictly rising. -/
def Memory.write : Memory → Nat → Byte → Memory
  | [], i, v => [(i, v)]
  | (a, w) :: m, i, v =>
    if i < a then (i, v) :: (a, w) :: m
    else if i = a then (i, v) :: m
    else (a, w) :: Memory.write m i v

/-- The canonical form: addresses strictly rising. -/
def Memory.wf : Memory → Bool
  | [] => true
  | [_] => true
  | (a, _) :: (b, w) :: m => decide (a < b) && Memory.wf ((b, w) :: m)

/-- `PBUF[i]` (R46); a byte nothing has written is a free value (R16, U8). -/
def Memory.readPbuf (m : Memory) (i : Nat) : Byte := (m.get? i).getD (Config.freePbufByte i)

/-- `KBUF[i]` (R47); a byte nothing has written is a free value (R18, U8). -/
def Memory.readKbuf (m : Memory) (i : Nat) : Byte := (m.get? i).getD (Config.freeKbufByte i)

/-- `PBUF[0 .. n-1]`, a copy in order (R46). -/
def Memory.pbufBytes (m : Memory) (n : Nat) : List Byte := (List.range n).map m.readPbuf

/-- `KBUF[1 .. n-1]`, a copy in order (R47). -/
def Memory.kbufPayload (m : Memory) (n : Nat) : List Byte := (List.range (n - 1)).map fun i => m.readKbuf (i + 1)

/-- The event the step returns. -/
def State.setEvent (s : State) (e : Event) : State := { s with event := e }

/-- `P` replaced. -/
def State.setP (s : State) (p : Parser) : State := { s with p := p }

/-- `K` replaced. -/
def State.setK (s : State) (k : Kiss) : State := { s with k := k }

/-- `P.st <- st`. -/
def State.setSt (s : State) (st : ParserState) : State := { s with p := { s.p with st := st } }

/-- The handlers' environment replaced. -/
def State.setEnv (s : State) (e : Env) : State := { s with env := e }

/-- `CMD_TX <- CMD_TX ++ bs`. -/
def State.emitCmd (s : State) (bs : List Byte) : State := { s with cmdTx := s.cmdTx ++ bs }

/-- `KISS_TX <- KISS_TX ++ bs`. -/
def State.emitKiss (s : State) (bs : List Byte) : State := { s with kissTx := s.kissTx ++ bs }

/-- A DISPATCH event handed to the external Dispatcher (R7). -/
def State.noteDispatch (s : State) (c n : Byte) (p : List Byte) : State :=
  { s with event := .dispatch c n p, dispatches := s.dispatches ++ [⟨c, n, p⟩] }

/-- `PRESET` (R138): `PBUF` is left as it is. -/
def Parser.preset (p : Parser) : Parser :=
  { p with st := .sync0, cmd := 0, len := 0, idx := 0, computed := 0, rx := 0 }

/-- `PRESET` on the state. -/
def State.preset (s : State) : State := s.setP s.p.preset

/-- ERROR ENTRY, the block's exception (R201): `PRESET`, the event `ERROR(code)` and the error reply with the current
`STATUS` (R141, R184), in the step that detects it. Nothing is saved. There is no return from it (R202): the next byte is
handled in `SYNC0`. -/
def State.raise (s : State) (k : ErrorKind) : State :=
  (s.preset.emitCmd (errReplyFrame s.cfg s.env.status (s.cfg.errCode k))).setEvent (.error (s.cfg.errCode k))

/-- A KISS decode error (R119, R197): the given `K`, the event, no output. -/
def State.kissError (s : State) (k : Kiss) (r : KissError) : State := (s.setK k).setEvent (.kerr r)

/-- `K.len + 1` in the width of the register (R19, log 20). -/
def Kiss.lenSucc (cfg : Config) (k : Kiss) : Nat := (k.len + 1) % 2 ^ cfg.kissLenBits

/-- `APPEND(v)` (R117) to the decoder state `k`, which already carries the flag updates of the case that appends. The test is
`K.len = KISS_CAP`; a length above it exists in no reachable state (R22), and its index is no byte of `KBUF`. -/
def State.append (s : State) (k : Kiss) (v : Byte) : Host.Outcome State Fault Refusal :=
  if k.len = s.cfg.kissCap then .next (s.kissError k.fail .overflow)
  else if k.len < s.cfg.kissCap then
    .next ((s.setK { k with buf := Memory.write k.buf k.len v, len := k.lenSucc s.cfg }).setEvent .none)
  else .fault .kbufIndex

/-- The success reply to id `c` on `CMD_TX` (R180, R183) with the current `STATUS`; a payload that no `LEN` byte can count is
refused (R185). -/
def State.sendReply (s : State) (c : Byte) (q : List Byte) : Host.Outcome State Fault Refusal :=
  if q.length ≤ 255 then .next (s.emitCmd (replyFrame s.cfg s.env.status c q)) else .refused .replyTooLong

/-- One answer of the external handlers: the next one the outside has listed, else a fresh free value (R174, U11, log 4). -/
def State.response (s : State) : Response :=
  match s.responses with
  | r :: _ => r
  | [] => Config.freeResponse s.draws

/-- The state once that answer has been taken. -/
def State.tookResponse (s : State) : State :=
  match s.responses with
  | _ :: rs => { s with responses := rs }
  | [] => { s with draws := s.draws + 1 }

end Sys2Proof.Machine
end

