-- ==== Sys2Proof/Machine/Handlers.lean ====
section
/-! DEFINITION. The dispatch interface (44_command_table.md section 2): for each command, what its contract fixes of the
external handler's answer (R160 to R172, R174), and the Dispatcher (R173). Everything a contract leaves open is taken from the
answer `r`, on which nothing is assumed. -/

namespace Sys2Proof.Machine

/-- A handler's reply: at most one, `SUCCESS(q)` or `FAILURE(e)` (R174). -/
inductive HandlerReply where
  | success (q : Payload)
  | failure (e : ErrorKind)
  deriving DecidableEq, Repr

/-- What `HANDLER(c, p, env)` returns (R173, R174): the new environment, `STATUS` as its reply carries it (R184), the reply, and
the bytes of the `TX` items in order, each a KISS frame (R40). -/
structure Handled where
  env : Env
  replyStatus : Byte
  reply : Option HandlerReply
  tx : List (List Byte)
  deriving DecidableEq, Repr

/-- The `TX` items of an answer: `TX(s)` with `s = KENC(...)` (R173). -/
def txFrames (cfg : Config) (r : Response) : List (List Byte) := r.tx.map (kenc cfg)

/-- A handler that reports failure (R194, R195): one error reply, all else open. -/
def failed (cfg : Config) (r : Response) (e : ErrorKind) : Handled :=
  { env := r.env, replyStatus := r.replyStatus, reply := some (.failure e), tx := txFrames cfg r }

/-- A handler whose reply and effect the spec leaves open (N11). It may answer nothing: R174 gives it at most one reply, while
R161 calls `RESET` the only command that causes no byte (DESIGN CHOICE, log 24). -/
def openHandled (cfg : Config) (r : Response) : Handled :=
  match r.failure with
  | some e => failed cfg r e
  | none =>
    { env := r.env, replyStatus := r.replyStatus, reply := r.payload.map .success, tx := txFrames cfg r }

/-- A handler whose success reply carries `q` and which leaves the environment `e`, unless it reports failure; its `TX` items
are open (R174). -/
def answered (cfg : Config) (e : Env) (r : Response) (q : Payload) : Handled :=
  match r.failure with
  | some k => failed cfg r k
  | none => { openHandled cfg r with env := e, reply := some (.success q) }

/-- `NOP`: "no-op, always succeeds" (R160); log 5. -/
def handleNop (e : Env) (r : Response) : Handled :=
  { env := { e with status := r.env.status }, replyStatus := r.replyStatus, reply := some (.success ⟨[], by decide⟩),
    tx := [] }

/-- `RESET`: "triggers reboot, no reply expected" (R161, U4). The block is not reset by it. -/
def handleReset (cfg : Config) (r : Response) : Handled :=
  { env := r.env, replyStatus := r.replyStatus, reply := none, tx := txFrames cfg r }

/-- `READ_TXPWR`: replies the power level, high byte first (R162). -/
def handleReadTxpwr (cfg : Config) (e : Env) (r : Response) : Handled := answered cfg r.env r (halfPayload e.power)

/-- `SET_TXPWR`: stores its operand, empty success reply (R163, R174). -/
def handleSetTxpwr (cfg : Config) (p : List Byte) (r : Response) : Handled :=
  answered cfg { r.env with power := beHalf p } r ⟨[], by decide⟩

/-- `TXDATA`: `TX(KENC(p))` when it transmits (R164, R174); other frames the handler may have queued go first. -/
def handleTxdata (cfg : Config) (p : List Byte) (r : Response) : Handled :=
  match r.failure with
  | some e => failed cfg r e
  | none => { openHandled cfg r with tx := txFrames cfg r ++ (if r.transmit then [kenc cfg p] else []) }

/-- `TX_ABORT` (R165): open. -/
def handleTxAbort (cfg : Config) (r : Response) : Handled := openHandled cfg r

/-- `TX_PSR` (R166): open. What its test sequence puts on `KISS_TX` are KISS frames, since only the KISS encoder writes there
(R40, R173); a sequence that does not pass the encoder puts nothing there (DEDUCED, log 23). -/
def handleTxPsr (cfg : Config) (r : Response) : Handled :=
  { openHandled cfg r with tx := txFrames cfg r ++ r.psr.map (kenc cfg) }

/-- `GET_CFG` (R167): open. -/
def handleGetCfg (cfg : Config) (r : Response) : Handled := openHandled cfg r

/-- `SET_CFG` (R168): open; which tags are accepted and how the configuration is kept are not in the source. -/
def handleSetCfg (cfg : Config) (r : Response) : Handled := openHandled cfg r

/-- `SAVE_CFG` (R169): open. -/
def handleSaveCfg (cfg : Config) (r : Response) : Handled := openHandled cfg r

/-- `CFG_DEFAULT` (R170): open. -/
def handleCfgDefault (cfg : Config) (r : Response) : Handled := openHandled cfg r

/-- `SET_FREQ`: sets the frequency, unless the handler reports failure (R171: the legal range is not in the source; log 21). -/
def handleSetFreq (cfg : Config) (p : List Byte) (r : Response) : Handled :=
  match r.failure with
  | some e => failed cfg r e
  | none => { openHandled cfg r with env := { r.env with freq := beWord p } }

/-- `GET_QUEUE_DEPTH`: replies the depth, high byte first (R172). -/
def handleGetQueueDepth (cfg : Config) (e : Env) (r : Response) : Handled := answered cfg r.env r (halfPayload e.depth)

/-- `HANDLER(c, p, env)` (R174): exactly one handler, keyed by the command (R173). -/
def handler (cfg : Config) (c : Command) (p : List Byte) (e : Env) (r : Response) : Handled :=
  match c with
  | .nop => handleNop e r
  | .reset => handleReset cfg r
  | .txdata => handleTxdata cfg p r
  | .txAbort => handleTxAbort cfg r
  | .txPsr => handleTxPsr cfg r
  | .getCfg => handleGetCfg cfg r
  | .setCfg => handleSetCfg cfg r
  | .saveCfg => handleSaveCfg cfg r
  | .cfgDefault => handleCfgDefault cfg r
  | .setFreq => handleSetFreq cfg p r
  | .getQueueDepth => handleGetQueueDepth cfg e r
  | .readTxpwr => handleReadTxpwr cfg e r
  | .setTxpwr => handleSetTxpwr cfg p r

/-- The bytes a handler's reply puts on `CMD_TX` (R173). -/
def replyBytes (cfg : Config) (c : Command) (h : Handled) : List Byte :=
  match h.reply with
  | none => []
  | some (.success q) => replyFrame cfg h.replyStatus (cfg.id c) q.val
  | some (.failure e) => errReplyFrame cfg h.replyStatus (cfg.errCode e)

/-- What the Dispatcher does with a handler's outputs (R173). Every `TX` item is a KISS frame (R40). -/
def State.deliver (s : State) (c : Command) (h : Handled) : State :=
  ((s.setEnv h.env).emitKiss h.tx.flatten).emitCmd (replyBytes s.cfg c h)

/-- `HANDLE(c, n, p)` (R173): one handler call and its outputs. -/
def State.handle (s : State) (c : Command) (p : List Byte) : State :=
  s.tookResponse.deliver c (handler s.cfg c p s.env s.response)

end Sys2Proof.Machine
end

