-- ==== Sys2Proof/Machine/Parser.lean ====
section
/-! DEFINITION. The Command Frame Parser (43_cmd_parser.md): one meaning per frame field position, and the rejected command
byte. -/

namespace Sys2Proof.Machine

/-- R131, state `SYNC0`; in `SYNC1` the first sync byte keeps the state (R132). -/
def execSyncHi (b : Byte) (s : State) : Host.Outcome State Fault Refusal :=
  .next ((if b = s.cfg.syncHi then s.setSt .sync1 else s).setEvent .none)

/-- R132, state `SYNC1`. -/
def execSyncLo (b : Byte) (s : State) : Host.Outcome State Fault Refusal :=
  .next ((s.setSt (if b = s.cfg.syncLo then .cmd else if b = s.cfg.syncHi then .sync1 else .sync0)).setEvent .none)

/-- R133's valid branch for the command `c`: the byte is stored and the checksum seeded with it. -/
def State.acceptCmd (s : State) (c : Command) : State :=
  (s.setP { s.p with cmd := s.cfg.id c, computed := fStep s.cfg s.cfg.seed (s.cfg.id c), st := .len }).setEvent .none

/-- R133's invalid branch, R191. -/
def execInvalidCmd (_b : Byte) (s : State) : Host.Outcome State Fault Refusal := .next (s.raise .invalidCmd)

/-- R134, state `LEN`. -/
def execLen (b : Byte) (s : State) : Host.Outcome State Fault Refusal :=
  match s.cfg.command? s.p.cmd with
  | none => .fault .unlistedCommand
  | some c =>
    if validLen s.cfg c b then
      .next ((s.setP { s.p with computed := fStep s.cfg s.p.computed b, len := b, idx := 0,
                                st := if b = 0 then .chkHi else .payload }).setEvent .none)
    else .next (s.raise .invalidLen)

/-- R135, state `PAYLOAD`. An index at or above `MAX_PAYLOAD` is no byte of `PBUF` (R40); R17 rules it out. -/
def execPayload (b : Byte) (s : State) : Host.Outcome State Fault Refusal :=
  if s.p.idx.toNat < s.cfg.maxPayload then
    .next ((s.setP { s.p with buf := Memory.write s.p.buf s.p.idx.toNat b, computed := fStep s.cfg s.p.computed b,
                              idx := s.p.idx + 1,
                              st := if s.p.idx + 1 = s.p.len then .chkHi else s.p.st }).setEvent .none)
  else .fault .pbufIndex

/-- R136, state `CHK_HI`. -/
def execChkhi (b : Byte) (s : State) : Host.Outcome State Fault Refusal :=
  .next ((s.setP { s.p with rx := cat b (lo s.p.rx), st := .chkLo }).setEvent .none)

/-- DISPATCH of the frame in `P` (R137, R141, R173): the payload is copied out, the parser reset, the event handed out and the
handler run, all in this step. -/
def State.dispatch (s : State) : Host.Outcome State Fault Refusal :=
  match s.cfg.command? s.p.cmd with
  | none => .fault .unlistedCommand
  | some c =>
    if s.p.len.toNat ≤ s.cfg.maxPayload then
      let q := s.p.buf.pbufBytes s.p.len.toNat
      .next ((s.preset.noteDispatch s.p.cmd s.p.len q).handle c q)
    else .fault .pbufIndex

/-- R137, state `CHK_LO`. -/
def execChklo (b : Byte) (s : State) : Host.Outcome State Fault Refusal :=
  if cat (hi s.p.rx) b = s.p.computed then s.dispatch else .next (s.raise .checksum)

end Sys2Proof.Machine
end

