-- ==== Sys2Proof/Machine/Commands.lean ====
section
/-! DEFINITION. The thirteen command bytes (44_command_table.md R160 to R172, in the table's order). Each is the byte in state
`CMD`, accepted by R133; its length rule is applied at the `LEN` byte (`execLen`), and its dispatch, handler and reply happen
at the `CHKLO` byte (`execChklo`, Machine/Handlers.lean). Log 11. -/

namespace Sys2Proof.Machine

/-- `NOP` (R160, R133). -/
def execNop (s : State) : Host.Outcome State Fault Refusal := .next (s.acceptCmd .nop)

/-- `RESET` (R161, R133). -/
def execReset (s : State) : Host.Outcome State Fault Refusal := .next (s.acceptCmd .reset)

/-- `TXDATA` (R164, R133). -/
def execTxdata (s : State) : Host.Outcome State Fault Refusal := .next (s.acceptCmd .txdata)

/-- `TX_ABORT` (R165, R133). -/
def execTxAbort (s : State) : Host.Outcome State Fault Refusal := .next (s.acceptCmd .txAbort)

/-- `TX_PSR` (R166, R133). -/
def execTxPsr (s : State) : Host.Outcome State Fault Refusal := .next (s.acceptCmd .txPsr)

/-- `GET_CFG` (R167, R133). -/
def execGetCfg (s : State) : Host.Outcome State Fault Refusal := .next (s.acceptCmd .getCfg)

/-- `SET_CFG` (R168, R133). -/
def execSetCfg (s : State) : Host.Outcome State Fault Refusal := .next (s.acceptCmd .setCfg)

/-- `SAVE_CFG` (R169, R133). -/
def execSaveCfg (s : State) : Host.Outcome State Fault Refusal := .next (s.acceptCmd .saveCfg)

/-- `CFG_DEFAULT` (R170, R133). -/
def execCfgDefault (s : State) : Host.Outcome State Fault Refusal := .next (s.acceptCmd .cfgDefault)

/-- `SET_FREQ` (R171, R133). -/
def execSetFreq (s : State) : Host.Outcome State Fault Refusal := .next (s.acceptCmd .setFreq)

/-- `GET_QUEUE_DEPTH` (R172, R133). -/
def execGetQueueDepth (s : State) : Host.Outcome State Fault Refusal := .next (s.acceptCmd .getQueueDepth)

/-- `READ_TXPWR` (R162, R133). -/
def execReadTxpwr (s : State) : Host.Outcome State Fault Refusal := .next (s.acceptCmd .readTxpwr)

/-- `SET_TXPWR` (R163, R133). -/
def execSetTxpwr (s : State) : Host.Outcome State Fault Refusal := .next (s.acceptCmd .setTxpwr)

end Sys2Proof.Machine
end

