-- ==== Sys2Proof/Machine/KissDecoder.lean ====
section
/-! DEFINITION. The KISS decoder (42_kiss_decode.md): one meaning per case of R110. -/

namespace Sys2Proof.Machine

/-- R111: padding delimiter. -/
def execFendPad (s : State) : Host.Outcome State Fault Refusal :=
  .next ((s.setK s.k.clearFlags).setEvent .none)

/-- R118: a delivered frame and its RX-data reply, in the step of the delimiter. A payload no reply can carry is refused. -/
def State.deliverFrame (s : State) (q : List Byte) : Host.Outcome State Fault Refusal :=
  ((s.setK s.k.clear).setEvent (.rxframe q)).sendReply s.cfg.idRxdata q

/-- R112: end of frame. The dangling escape is tested before the command byte. A length above `KISS_CAP` exists in no
reachable state (R22). -/
def execFendEnd (s : State) : Host.Outcome State Fault Refusal :=
  if s.cfg.kissCap < s.k.len then .fault .kbufIndex
  else if s.k.esc then .next (s.kissError s.k.clear .danglingEsc)
  else if s.k.buf.readKbuf 0 ≠ s.cfg.kissCmdData then .next (s.kissError s.k.clear .badCmd)
  else s.deliverFrame (s.k.buf.kbufPayload s.k.len)

/-- R113: discarding. -/
def execKdrop (_b : Byte) (s : State) : Host.Outcome State Fault Refusal := .next (s.setEvent .none)

/-- R114, transposed delimiter: a literal `FEND` is appended. -/
def execTfend (s : State) : Host.Outcome State Fault Refusal := s.append (s.k.setEsc false) s.cfg.fend

/-- R114, transposed escape: a literal `FESC` is appended. -/
def execTfesc (s : State) : Host.Outcome State Fault Refusal := s.append (s.k.setEsc false) s.cfg.fesc

/-- R114, unrecognised transposed code. -/
def execBadTransposed (_b : Byte) (s : State) : Host.Outcome State Fault Refusal :=
  .next (s.kissError (s.k.setEsc false).fail .badEsc)

/-- R115: escape; nothing is stored. -/
def execFesc (s : State) : Host.Outcome State Fault Refusal := .next ((s.setK (s.k.setEsc true)).setEvent .none)

/-- R116: literal byte. -/
def execKdata (b : Byte) (s : State) : Host.Outcome State Fault Refusal := s.append s.k b

/-- R116 for the command byte "data frame" at the head of a frame; R112 examines it at the closing delimiter (R73). -/
def execKissCmdData (s : State) : Host.Outcome State Fault Refusal := s.append s.k s.cfg.kissCmdData

end Sys2Proof.Machine
end

