-- ==== Sys2Proof/Machine/Units.lean ====
section
/-! DEFINITION. The passive units one operation at a time: the Reply Encoder (45_reply_encoder.md), the KISS encoder
(41_kiss_encode.md R101, R102) and the Checksum Engine (40_checksum.md R90, R96), as the rows of the opcode table give them. The
steps of the agents use the same operations as functions (Machine/Frames.lean). -/

namespace Sys2Proof.Machine

/-- R180. -/
def execReply (c : BitVec 7) (q : List Byte) (s : State) : Host.Outcome State Fault Refusal :=
  (s.setEvent .none).sendReply (c.setWidth 8) q

/-- R181. -/
def execErrreply (e : Byte) (s : State) : Host.Outcome State Fault Refusal :=
  .next ((s.emitCmd (errReplyFrame s.cfg s.env.status e)).setEvent .none)

/-- R182. -/
def execRxreply (q : List Byte) (s : State) : Host.Outcome State Fault Refusal :=
  (s.setEvent .none).sendReply s.cfg.idRxdata q

/-- `KENC_START` (R102). -/
def execKencOpen (s : State) : Host.Outcome State Fault Refusal :=
  .next ((s.emitKiss (kencStart s.cfg)).setEvent .none)

/-- `KENC_BYTE(FEND)` (R101, R102). -/
def execKescFend (s : State) : Host.Outcome State Fault Refusal :=
  .next ((s.emitKiss (kesc s.cfg s.cfg.fend)).setEvent .none)

/-- `KENC_BYTE(FESC)` (R101, R102). -/
def execKescFesc (s : State) : Host.Outcome State Fault Refusal :=
  .next ((s.emitKiss (kesc s.cfg s.cfg.fesc)).setEvent .none)

/-- `KENC_BYTE(b)` (R101, R102). -/
def execKescLiteral (b : Byte) (s : State) : Host.Outcome State Fault Refusal :=
  .next ((s.emitKiss (kesc s.cfg b)).setEvent .none)

/-- `KENC_END` (R102). -/
def execKencClose (s : State) : Host.Outcome State Fault Refusal :=
  .next ((s.emitKiss (kencEnd s.cfg)).setEvent .none)

/-- `F(acc, c)`: the engine's output wire (R90, R96); log 9. -/
def execF (acc : Half) (c : Byte) (s : State) : Host.Outcome State Fault Refusal :=
  .next ({ s with engineOut := fStep s.cfg acc c }.setEvent .none)

end Sys2Proof.Machine
end

