-- ==== Sys2Proof/Machine/Dispatch.lean ====
section
/-! DEFINITION. The dispatch of every row of the opcode table to its meaning. -/

namespace Sys2Proof.Machine

def exec (i : Instr) (s : State) : Host.Outcome State Fault Refusal :=
  match i with
  | .nop => Sys2Proof.Machine.execNop s
  | .reset => Sys2Proof.Machine.execReset s
  | .txdata => Sys2Proof.Machine.execTxdata s
  | .txAbort => Sys2Proof.Machine.execTxAbort s
  | .txPsr => Sys2Proof.Machine.execTxPsr s
  | .getCfg => Sys2Proof.Machine.execGetCfg s
  | .setCfg => Sys2Proof.Machine.execSetCfg s
  | .saveCfg => Sys2Proof.Machine.execSaveCfg s
  | .cfgDefault => Sys2Proof.Machine.execCfgDefault s
  | .setFreq => Sys2Proof.Machine.execSetFreq s
  | .getQueueDepth => Sys2Proof.Machine.execGetQueueDepth s
  | .readTxpwr => Sys2Proof.Machine.execReadTxpwr s
  | .setTxpwr => Sys2Proof.Machine.execSetTxpwr s
  | .invalidCmd b => Sys2Proof.Machine.execInvalidCmd b s
  | .syncHi b => Sys2Proof.Machine.execSyncHi b s
  | .syncLo b => Sys2Proof.Machine.execSyncLo b s
  | .len b => Sys2Proof.Machine.execLen b s
  | .payload b => Sys2Proof.Machine.execPayload b s
  | .chkhi b => Sys2Proof.Machine.execChkhi b s
  | .chklo b => Sys2Proof.Machine.execChklo b s
  | .reply c q => Sys2Proof.Machine.execReply c q s
  | .errreply e => Sys2Proof.Machine.execErrreply e s
  | .rxreply q => Sys2Proof.Machine.execRxreply q s
  | .fendPad => Sys2Proof.Machine.execFendPad s
  | .fendEnd => Sys2Proof.Machine.execFendEnd s
  | .kdrop b => Sys2Proof.Machine.execKdrop b s
  | .tfend => Sys2Proof.Machine.execTfend s
  | .tfesc => Sys2Proof.Machine.execTfesc s
  | .badTransposed b => Sys2Proof.Machine.execBadTransposed b s
  | .fesc => Sys2Proof.Machine.execFesc s
  | .kdata b => Sys2Proof.Machine.execKdata b s
  | .kissCmdData => Sys2Proof.Machine.execKissCmdData s
  | .kencOpen => Sys2Proof.Machine.execKencOpen s
  | .kescFend => Sys2Proof.Machine.execKescFend s
  | .kescFesc => Sys2Proof.Machine.execKescFesc s
  | .kescLiteral b => Sys2Proof.Machine.execKescLiteral b s
  | .kencClose => Sys2Proof.Machine.execKencClose s
  | .f acc c => Sys2Proof.Machine.execF acc c s

end Sys2Proof.Machine
end

