-- ==== Sys2Proof/Machine/Calls.lean ====
section
/-! DEFINITION. The operations a step asks of the passive units, run one after the other inside that one step (00_scope.md R6;
41_kiss_encode.md R102: "the caller performs the whole sequence inside one step"). -/

namespace Sys2Proof.Machine

/-- The operations in order; the first that stops, or that no unit has a format for, stops the step. -/
def runCalls : List Call → State → Host.Outcome State Fault Refusal
  | [], s => .next s
  | c :: cs, s =>
    match decode s.cfg (.call c) with
    | .error r => .refused (.badCall r)
    | .ok i =>
      match exec i s with
      | .next t => runCalls cs t
      | .fault r => .fault r
      | .refused r => .refused r

end Sys2Proof.Machine
end

