-- ==== Sys2Proof/Machine/Fetch.lean ====
section
/-! DEFINITION. Where the next instruction comes from: the host's schedule names the agent, the agent takes the next byte of
its stream (R6, R48), and the state that selects the rule goes with it (R110, R130). -/

namespace Sys2Proof.Machine

/-- What the next move brings: an instruction to decode and the state with its byte consumed, or a move that is no step of an
agent and the state it leaves (log 6, log 8). -/
inductive Fetched where
  | instr (f : Fetch) (s : State)
  | quiet (s : State)

/-- The place of a byte of `CMD_RX`. -/
def State.cmdFetch (s : State) (b : Byte) : Fetch := .cmdByte s.p.st b

/-- The place of a byte of `KISS_RX`. -/
def State.kissFetch (s : State) (b : Byte) : Fetch := .kissByte (s.k.len = 0) s.k.drop s.k.esc b

/-- The next move. With nothing scheduled the block is idle and nothing changes (R208); a turn whose stream has no byte
waiting is no step (R48: the host's read "may return zero bytes; then no step happens"). -/
def State.fetch (s : State) : Fetched :=
  match s.sched with
  | [] => .quiet s
  | .parser :: ts =>
    match s.cmdRx with
    | [] => .quiet { s with sched := ts }
    | b :: bs => .instr (s.cmdFetch b) { s with sched := ts, cmdRx := bs }
  | .decoder :: ts =>
    match s.kissRx with
    | [] => .quiet { s with sched := ts }
    | b :: bs => .instr (s.kissFetch b) { s with sched := ts, kissRx := bs }
  | .outside e :: ts => .quiet { s with sched := ts, env := e }

/-- The state in which the next step runs exactly `f`: the byte heads its stream, the schedule names its agent, and the state
that selects its rule is set; or the unit operation is all that the step in progress still asks for. Nothing else changes
(log 17). -/
def State.place (s : State) : Fetch → State
  | .cmdByte st b =>
    { s with p := { s.p with st := st }, cmdRx := b :: s.cmdRx, sched := .parser :: s.sched, calls := [] }
  | .kissByte empty drop esc b =>
    { s with k := { s.k with len := if empty then 0 else max 1 s.k.len, drop := drop, esc := esc },
             kissRx := b :: s.kissRx, sched := .decoder :: s.sched, calls := [] }
  | .call c => { s with calls := [c] }

end Sys2Proof.Machine
end

