-- ==== Sys2Proof/Machine/Step.lean ====
section
/-! DEFINITION. One step: the next move is fetched, decoded and run (00_scope.md R6); a step in progress is finished first. -/

namespace Sys2Proof.Machine

/-- One atomic step: one byte of one stream through its agent, or a quiet move. In a state that stands inside a step, with
operations of the units still to be done, the step does all of them (log 7); no reachable state is one. -/
def step (s : State) : Host.Outcome State Fault Refusal :=
  match s.calls with
  | c :: cs => runCalls (c :: cs) { s with calls := [] }
  | [] =>
    match s.fetch with
    | .quiet t => .next t
    | .instr f t =>
      match decode s.cfg f with
      | .ok i => exec i t
      | .error r => .refused (.badCall r)

/-- `s` with a table word where the next step fetches (log 12, log 17). -/
def State.withFetchWord (s : State) (_nbits w : Nat) : State :=
  s.place (tableFetch s.cfg (s.k.len = 0) (BitVec.ofNat 8 w))

end Sys2Proof.Machine
end

