-- ==== Sys2Proof/Safety.lean ====
section
/-! DEFINITION. The terms claims use: the invariants of the parser and decoder state (10_state.md R17, R22), the shape of what
may stand on `CMD_TX` (R61, R209), and a run by its schedule. -/

namespace Sys2Proof

/-- The states in which `P` holds a frame in progress past its command byte. -/
def ParserState.pastCmd (st : ParserState) : Bool :=
  st = .len || st = .payload || st = .chkHi || st = .chkLo

/-- The states in which `P.len` has been accepted. -/
def ParserState.pastLen (st : ParserState) : Bool :=
  st = .payload || st = .chkHi || st = .chkLo

end Sys2Proof

namespace Sys2Proof.Machine

/-- `PARSE_STEP(b)` (R130 to R138) as one function, line for line: the machine's parser turns are claimed to do this. -/
def parseStep (cfg : Config) (p : Parser) (b : Byte) : Parser × Event :=
  match p.st with
  | .sync0 => (if b = cfg.syncHi then { p with st := .sync1 } else p, .none)
  | .sync1 =>
    (if b = cfg.syncLo then { p with st := .cmd }
      else if b = cfg.syncHi then { p with st := .sync1 } else { p with st := .sync0 }, .none)
  | .cmd =>
    if validCmd cfg b then ({ p with cmd := b, computed := fStep cfg 0x0000 b, st := .len }, .none)
    else (p.preset, .error cfg.errInvalidCmd)
  | .len =>
    if (cfg.command? p.cmd).any (validLen cfg · b) then
      ({ p with computed := fStep cfg p.computed b, len := b, idx := 0,
                st := if b = 0 then .chkHi else .payload }, .none)
    else (p.preset, .error cfg.errInvalidLen)
  | .payload =>
    let p1 := { p with buf := Memory.write p.buf p.idx.toNat b, computed := fStep cfg p.computed b, idx := p.idx + 1 }
    (if p1.idx = p1.len then { p1 with st := .chkHi } else p1, .none)
  | .chkHi => ({ p with rx := cat b (lo p.rx), st := .chkLo }, .none)
  | .chkLo =>
    let p1 := { p with rx := cat (hi p.rx) b }
    if p1.rx = p1.computed then (p1.preset, .dispatch p.cmd p.len (p.buf.pbufBytes p.len.toNat))
    else (p1.preset, .error cfg.errChecksum)

/-- `APPEND(v)` (R117) as one function of `K`. -/
def kissAppend (cfg : Config) (k : Kiss) (v : Byte) : Kiss × Event :=
  if k.len = cfg.kissCap then ({ k with len := 0, drop := true }, .kerr .overflow)
  else ({ k with buf := Memory.write k.buf k.len v, len := k.len + 1 }, .none)

/-- `KDEC_STEP(b)` (R110 to R117) as one function, the tests in R110's order: the machine's decoder turns are claimed to do
this. -/
def kdecStep (cfg : Config) (k : Kiss) (b : Byte) : Kiss × Event :=
  if b = cfg.fend ∧ k.len = 0 then ({ k with esc := false, drop := false }, .none)
  else if b = cfg.fend then
    ({ k with len := 0, esc := false, drop := false },
      if k.esc then .kerr .danglingEsc
      else if k.buf.readKbuf 0 ≠ cfg.kissCmdData then .kerr .badCmd
      else .rxframe (k.buf.kbufPayload k.len))
  else if k.drop then (k, .none)
  else if k.esc then
    if b = cfg.tfend then kissAppend cfg { k with esc := false } cfg.fend
    else if b = cfg.tfesc then kissAppend cfg { k with esc := false } cfg.fesc
    else ({ k with esc := false, len := 0, drop := true }, .kerr .badEsc)
  else if b = cfg.fesc then ({ k with esc := true }, .none)
  else kissAppend cfg k b

/-- R17, with what it takes to be inductive: in state `LEN` only the command byte has been folded, and every byte of `PBUF`
below `P.idx` has been written (R16). -/
structure ParserInv (cfg : Config) (p : Parser) : Prop where
  len_le : p.len.toNat ≤ cfg.maxPayload
  idx_le : p.idx.toNat ≤ p.len.toNat
  idx_payload : p.st = .payload → p.idx.toNat < p.len.toNat
  idx_chk : p.st = .chkHi ∨ p.st = .chkLo → p.idx = p.len
  cleared : p.st.pastCmd = false → p.cmd = 0 ∧ p.len = 0 ∧ p.idx = 0 ∧ p.computed = 0 ∧ p.rx = 0
  cmd_known : p.st.pastCmd = true → (cfg.command? p.cmd).isSome = true
  len_valid : p.st.pastLen = true → ∀ c, cfg.command? p.cmd = some c → validLen cfg c p.len = true
  len_fresh : p.st = .len → p.len = 0 ∧ p.idx = 0 ∧ p.computed = fletcher cfg [p.cmd]
  calc_fold : p.st.pastLen = true → p.computed = fletcher cfg ([p.cmd, p.len] ++ p.buf.pbufBytes p.idx.toNat)
  rx_zero : p.st ≠ .chkLo → p.rx = 0
  rx_low : lo p.rx = 0
  written : ∀ i, i < p.idx.toNat → (p.buf.get? i).isSome = true
  buf_wf : p.buf.wf = true
  buf_bound : ∀ i, (p.buf.get? i).isSome = true → i < cfg.maxPayload

/-- R22 (i) and (ii), the width of `K.len` (R19), and the same facts about `KBUF` (R18). -/
structure KissInv (cfg : Config) (k : Kiss) : Prop where
  len_le : k.len ≤ cfg.kissCap
  len_fits : k.len < 2 ^ cfg.kissLenBits
  drop_empty : k.drop = true → k.len = 0 ∧ k.esc = false
  written : ∀ i, i < k.len → (k.buf.get? i).isSome = true
  buf_wf : k.buf.wf = true
  buf_bound : ∀ i, (k.buf.get? i).isSome = true → i < cfg.kissCap

/-- The invariant of a state between steps: a configuration that may be built (R222), R17 and R22, and nothing that a step still
asks of the units (R6). -/
structure Inv (s : State) : Prop where
  cfg_wf : s.cfg.wf = true
  parser : ParserInv s.cfg s.p
  kiss : KissInv s.cfg s.k
  between : s.calls = []

/-- A whole, well-formed reply frame (R61): a command byte with bit 7 set, a payload its `LEN` counts, the checksum over
everything between. -/
def IsReply (cfg : Config) (fr : List Byte) : Prop :=
  ∃ (st c : Byte) (q : List Byte), c.getLsbD 7 = true ∧ q.length ≤ 255 ∧
    fr = framed cfg (statusHead cfg st ++ [c, lenByte q] ++ q)

/-- R209: a concatenation of whole reply frames and nothing else. -/
def WholeReplies (cfg : Config) (tx : List Byte) : Prop :=
  ∃ frs : List (List Byte), (∀ fr ∈ frs, IsReply cfg fr) ∧ tx = frs.flatten

/-- `n` turns of one agent and then the rest of a schedule. -/
def turns (n : Nat) (t : Turn) (rest : List Turn) : List Turn := List.replicate n t ++ rest

end Sys2Proof.Machine
end

