-- ==== Sys2Proof/Certificates/Slice0/Obligations.lean ====
section
/-! DEFINITION. The statements about the machine, one per rule or property of the spec. Each docstring names what it
formalises; OBLIGATIONS.json gives basis and quotation. Statements about an open value hold for every value of it. -/

open Sys2Proof Sys2Proof.Machine

/-! ## Encoding -/

/-- Words written out from opcode_table.json and 30_encoding.md R69, R72 (decided configuration, log 2) decode to their rows. -/
def Obligations.TableWordsDecodeToTheirRows : Prop :=
  decode Config.decided (.cmdByte .cmd 0x26#8) = .ok .setTxpwr ∧
  decode Config.decided (.cmdByte .cmd 0x00#8) = .ok .nop ∧
  decode Config.decided (.cmdByte .cmd 0x10#8) = .ok (.invalidCmd 0x10#8) ∧
  decode Config.decided (.cmdByte .cmd 0xBE#8) = .ok (.invalidCmd 0xBE#8) ∧
  decode Config.decided (.cmdByte .sync0 0xBE#8) = .ok (.syncHi 0xBE#8) ∧
  decode Config.decided (.cmdByte .sync1 0xEF#8) = .ok (.syncLo 0xEF#8) ∧
  decode Config.decided (.cmdByte .payload 0xC0#8) = .ok (.payload 0xC0#8) ∧
  decode Config.decided (.kissByte true false true 0xC0#8) = .ok .fendPad ∧
  decode Config.decided (.kissByte false false true 0xC0#8) = .ok .fendEnd ∧
  decode Config.decided (.kissByte false false true 0xDC#8) = .ok .tfend ∧
  decode Config.decided (.kissByte false false false 0xDC#8) = .ok (.kdata 0xDC#8) ∧
  decode Config.decided (.kissByte false false true 0xDB#8) = .ok (.badTransposed 0xDB#8) ∧
  decode Config.decided (.kissByte true false false 0x00#8) = .ok .kissCmdData ∧
  decode Config.decided (.call (.reply 0xFF#8 [3#8])) = .ok (.errreply 3#8) ∧
  decode Config.decided (.call (.reply 0x90#8 [0x41#8])) = .ok (.rxreply [0x41#8]) ∧
  decode Config.decided (.call (.reply 0xA5#8 [])) = .ok (.reply 0x25#7 []) ∧
  decode Config.decided (.call (.kencByte 0xDB#8)) = .ok .kescFesc

/-- Decode and encode agree for every well-formed instruction under every well-formed configuration, every operand included. -/
def Obligations.DecodeOfEncodeIsIdentity : Prop :=
  ∀ (cfg : Config) (i : Instr), cfg.wf = true → i.wf cfg = true → decode cfg (encode cfg i) = .ok i

/-- What the decoder reads is well-formed, and no bit of the bytes it read is lost. -/
def Obligations.DecodedIsWellFormedAndKeepsItsBytes : Prop :=
  ∀ (cfg : Config) (f : Fetch) (i : Instr), cfg.wf = true → decode cfg f = .ok i →
    i.wf cfg = true ∧ (encode cfg i).bytes = f.bytes

/-- R139: in state `CMD` a byte is taken as a command exactly when it is in the domain of `CMDTAB`, and then as the command
of that id. -/
def Obligations.ValidCommandBytesAreTheTableIds : Prop :=
  ∀ (cfg : Config) (b : Byte),
    (validCmd cfg b = true ↔ ∃ c : Command, cfg.id c = b) ∧
    (validCmd cfg b = true → ∃ c : Command, cfg.id c = b ∧ decode cfg (.cmdByte .cmd b) = .ok c.instr) ∧
    (validCmd cfg b = false → decode cfg (.cmdByte .cmd b) = .ok (.invalidCmd b))

/-- The lengths each command admits: the three forms of a length rule (R70) with the rule of each command (R69). -/
def Obligations.LengthRulesOfTheCommands : Prop :=
  ∀ (cfg : Config) (l : Byte),
    (∀ c ∈ [Command.nop, .reset, .readTxpwr, .txAbort, .txPsr, .getCfg, .saveCfg, .cfgDefault, .getQueueDepth],
      validLen cfg c l = true ↔ l.toNat ≤ cfg.maxPayload ∧ l.toNat = 0) ∧
    (validLen cfg .setTxpwr l = true ↔ l.toNat ≤ cfg.maxPayload ∧ l.toNat = 2) ∧
    (validLen cfg .setFreq l = true ↔ l.toNat ≤ cfg.maxPayload ∧ l.toNat = 4) ∧
    (∀ c ∈ [Command.txdata, .setCfg], validLen cfg c l = true ↔ l.toNat ≤ cfg.maxPayload ∧ 0 < l.toNat)

/-! ## The step -/

/-- A step runs the decoded instruction: the byte at the head of the scheduled stream, decoded in the place the state gives
it, is executed on the state with that byte and that turn consumed. In a state inside a step (log 7) the one operation left is
executed, and of several the first, then the others within the same step. -/
def Obligations.StepRunsTheDecodedInstruction : Prop :=
  ∀ (s : State) (i : Instr),
    (∀ (b : Byte) (bs : List Byte) (ts : List Turn), s.calls = [] → s.sched = .parser :: ts → s.cmdRx = b :: bs →
      decode s.cfg (.cmdByte s.p.st b) = .ok i → step s = exec i { s with sched := ts, cmdRx := bs }) ∧
    (∀ (b : Byte) (bs : List Byte) (ts : List Turn), s.calls = [] → s.sched = .decoder :: ts → s.kissRx = b :: bs →
      decode s.cfg (.kissByte (decide (s.k.len = 0)) s.k.drop s.k.esc b) = .ok i →
      step s = exec i { s with sched := ts, kissRx := bs }) ∧
    (∀ c : Call, s.calls = [c] → decode s.cfg (.call c) = .ok i → step s = exec i { s with calls := [] }) ∧
    (∀ (c : Call) (cs : List Call) (t : State), s.calls = c :: cs → decode s.cfg (.call c) = .ok i →
      exec i { s with calls := [] } = .next t → step s = runCalls cs t)

/-- Moves that are no step of an agent: with nothing scheduled nothing changes, a turn whose stream has no byte waiting
changes nothing but the schedule (R48), and an outside turn changes the handlers' environment and nothing else (log 8). -/
def Obligations.QuietMovesChangeNothingElse : Prop :=
  ∀ (s : State) (ts : List Turn), s.calls = [] →
    (s.sched = [] → step s = .next s) ∧
    (s.sched = .parser :: ts → s.cmdRx = [] → step s = .next { s with sched := ts }) ∧
    (s.sched = .decoder :: ts → s.kissRx = [] → step s = .next { s with sched := ts }) ∧
    (∀ e : Env, s.sched = .outside e :: ts → step s = .next { s with sched := ts, env := e })

/-- R130, R141: one parser turn is `PARSE_STEP` on `P`, with what its event causes done in the same step: an error reply with
the current `STATUS`, or one handler call with its outputs; everything else of the state is unchanged. The zeros of the parser
reset are the spec's decision D18; what the handler interface takes from the answer is log 4 and log 5. -/
def Obligations.ParserTurnIsParseStep : Prop :=
  ∀ (s : State) (b : Byte) (bs : List Byte) (ts : List Turn),
    Inv s → s.sched = .parser :: ts → s.cmdRx = b :: bs →
    ∃ t : State, step s = .next t ∧
      t.p = (parseStep s.cfg s.p b).1 ∧ t.event = (parseStep s.cfg s.p b).2 ∧
      t.cfg = s.cfg ∧ t.k = s.k ∧ t.cmdRx = bs ∧ t.kissRx = s.kissRx ∧ t.sched = ts ∧ t.calls = s.calls ∧
      t.engineOut = s.engineOut ∧
      (match (parseStep s.cfg s.p b).2 with
        | .error code =>
          t.cmdTx = s.cmdTx ++ errReplyFrame s.cfg s.env.status code ∧ t.kissTx = s.kissTx ∧ t.env = s.env ∧
            t.dispatches = s.dispatches ∧ t.responses = s.responses ∧ t.draws = s.draws
        | .dispatch c n q =>
          t.dispatches = s.dispatches ++ [⟨c, n, q⟩] ∧ t.responses = s.responses.tail ∧
            t.draws = (if s.responses = [] then s.draws + 1 else s.draws) ∧
            ∃ cmd : Command, s.cfg.command? c = some cmd ∧
              t.env = (handler s.cfg cmd q s.env s.response).env ∧
              t.kissTx = s.kissTx ++ (handler s.cfg cmd q s.env s.response).tx.flatten ∧
              t.cmdTx = s.cmdTx ++ replyBytes s.cfg cmd (handler s.cfg cmd q s.env s.response)
        | _ =>
          t.cmdTx = s.cmdTx ∧ t.kissTx = s.kissTx ∧ t.env = s.env ∧ t.dispatches = s.dispatches ∧
            t.responses = s.responses ∧ t.draws = s.draws)

/-- R110 to R118: one decoder turn is `KDEC_STEP` on `K`, with the RX-data reply of a delivered frame in the same step;
everything else of the state is unchanged. What an escape stores (D5), the drop flag (D6), the dangling escape (D7) and the
empty payload (D19) are the spec's decisions; `KISS_CAP` above 256 is `EndOfFrameRule`'s and `OverlongRepliesAreRefused`'s. -/
def Obligations.DecoderTurnIsKdecStep : Prop :=
  ∀ (s : State) (b : Byte) (bs : List Byte) (ts : List Turn),
    Inv s → s.cfg.kissCap ≤ 256 → s.sched = .decoder :: ts → s.kissRx = b :: bs →
    step s = .next { s with
      sched := ts, kissRx := bs, k := (kdecStep s.cfg s.k b).1, event := (kdecStep s.cfg s.k b).2,
      cmdTx := s.cmdTx ++
        (match (kdecStep s.cfg s.k b).2 with
          | .rxframe q => rxReplyFrame s.cfg s.env.status q
          | _ => []) }

/-! ## The parser's instructions -/

/-- R131: in `SYNC0` the first sync byte leads to `SYNC1`, any other byte is ignored; nothing else changes. -/
def Obligations.FirstSyncByteRule : Prop :=
  ∀ (s : State) (b : Byte), s.p.st = .sync0 →
    exec (.syncHi b) s =
      .next { s with p := { s.p with st := if b = s.cfg.syncHi then .sync1 else .sync0 }, event := .none }

/-- R132: in `SYNC1` the second sync byte leads to `CMD`, the first keeps `SYNC1`, any other byte leads to `SYNC0`, for the
byte as decoded there and for the row `SYNC_LO` on every byte; nothing else changes. -/
def Obligations.SecondSyncByteRule : Prop :=
  ∀ (s : State) (b : Byte) (i : Instr), s.cfg.syncHi ≠ s.cfg.syncLo → s.p.st = .sync1 →
    decode s.cfg (.cmdByte .sync1 b) = .ok i ∨ i = .syncLo b →
    exec i s =
      .next { s with
        p := { s.p with st := if b = s.cfg.syncLo then .cmd else if b = s.cfg.syncHi then .sync1 else .sync0 },
        event := .none }

/-- Each of the thirteen command bytes (`NOP`, `RESET`, `TXDATA`, `TX_ABORT`, `TX_PSR`, `GET_CFG`, `SET_CFG`, `SAVE_CFG`,
`CFG_DEFAULT`, `SET_FREQ`, `GET_QUEUE_DEPTH`, `READ_TXPWR`, `SET_TXPWR`) runs in every state: the id is stored, the checksum
seeded with it, the parser goes to `LEN` (R133's valid branch), nothing else changes. -/
def Obligations.CommandBytesAreAccepted : Prop :=
  ∀ (s : State) (c : Command), c.instr ∈ [Instr.nop, .reset, .txdata, .txAbort, .txPsr, .getCfg, .setCfg, .saveCfg,
      .cfgDefault, .setFreq, .getQueueDepth, .readTxpwr, .setTxpwr] ∧
    exec c.instr s =
      .next { s with
        p := { s.p with cmd := s.cfg.id c, computed := fStep s.cfg s.cfg.seed (s.cfg.id c), st := .len },
        event := .none }

/-- R134: a length the command's rule admits is folded, stored, the counter reset, and the parser goes to `PAYLOAD`, or to
`CHK_HI` when it is zero; any other is `InvalidLength`: the error is reported at once and the parser is back in `SYNC0`. -/
def Obligations.LengthByteRule : Prop :=
  ∀ (s : State) (b : Byte) (c : Command), s.cfg.command? s.p.cmd = some c →
    (validLen s.cfg c b = true →
      exec (.len b) s =
        .next { s with
          p := { s.p with computed := fStep s.cfg s.p.computed b, len := b, idx := 0,
                          st := if b = 0 then .chkHi else .payload },
          event := .none }) ∧
    (validLen s.cfg c b = false →
      ∃ t : State, exec (.len b) s = .next t ∧ t.p.st = .sync0 ∧ t.event = .error s.cfg.errInvalidLen ∧
        t.cmdTx = s.cmdTx ++ errReplyFrame s.cfg s.env.status s.cfg.errInvalidLen)

/-- R135: the byte is stored at `PBUF[P.idx]` and nowhere else, folded, the counter incremented, and the parser goes to
`CHK_HI` when the counter reaches the length; nothing else changes. -/
def Obligations.PayloadByteRule : Prop :=
  ∀ (s : State) (b : Byte), s.p.idx.toNat < s.cfg.maxPayload → s.p.st = .payload →
    ∃ m : Memory,
      exec (.payload b) s =
        .next { s with
          p := { s.p with buf := m, computed := fStep s.cfg s.p.computed b, idx := s.p.idx + 1,
                          st := if s.p.idx + 1 = s.p.len then .chkHi else .payload },
          event := .none } ∧
      m.readPbuf s.p.idx.toNat = b ∧ ∀ a, a ≠ s.p.idx.toNat → m.readPbuf a = s.p.buf.readPbuf a

/-- R136: the byte becomes the high half of the received checksum and the parser goes to `CHK_LO`; nothing else changes. -/
def Obligations.HighChecksumByteRule : Prop :=
  ∀ (s : State) (b : Byte), ∃ v : Half, hi v = b ∧ lo v = lo s.p.rx ∧
    exec (.chkhi b) s = .next { s with p := { s.p with rx := v, st := .chkLo }, event := .none }

/-- R137: on equality of all 16 bits the frame in `P` is dispatched, its payload copied out of `PBUF`; otherwise
`ChecksumMismatch` is reported and nothing dispatched; either way the parser is back in `SYNC0`. -/
def Obligations.LowChecksumByteRule : Prop :=
  ∀ (s : State) (b : Byte) (c : Command),
    s.cfg.command? s.p.cmd = some c → s.p.len.toNat ≤ s.cfg.maxPayload →
    (cat (hi s.p.rx) b = s.p.computed →
      ∃ t : State, exec (.chklo b) s = .next t ∧ t.p.st = .sync0 ∧
        t.event = .dispatch s.p.cmd s.p.len ((List.range s.p.len.toNat).map s.p.buf.readPbuf) ∧
        t.dispatches =
          s.dispatches ++ [⟨s.p.cmd, s.p.len, (List.range s.p.len.toNat).map s.p.buf.readPbuf⟩]) ∧
    (cat (hi s.p.rx) b ≠ s.p.computed →
      ∃ t : State, exec (.chklo b) s = .next t ∧ t.p.st = .sync0 ∧ t.event = .error s.cfg.errChecksum ∧
        t.dispatches = s.dispatches ∧ t.cmdTx = s.cmdTx ++ errReplyFrame s.cfg s.env.status s.cfg.errChecksum)

/-- The frame of a dispatch: `P` is cleared but for `PBUF`; `K`, the streams not written to, the schedule and the configuration
are unchanged; outputs and environment are the one handler's (R173). The clearing is the spec's decision D18. -/
def Obligations.DispatchFrame : Prop :=
  ∀ (s : State) (b : Byte) (c : Command),
    s.cfg.command? s.p.cmd = some c → s.p.len.toNat ≤ s.cfg.maxPayload → cat (hi s.p.rx) b = s.p.computed →
    ∃ (t : State) (h : Handled), exec (.chklo b) s = .next t ∧
      h = handler s.cfg c ((List.range s.p.len.toNat).map s.p.buf.readPbuf) s.env s.response ∧
      t.p = { st := .sync0, cmd := 0, len := 0, idx := 0, computed := 0, rx := 0, buf := s.p.buf } ∧
      t.k = s.k ∧ t.cfg = s.cfg ∧ t.cmdRx = s.cmdRx ∧ t.kissRx = s.kissRx ∧ t.sched = s.sched ∧ t.calls = s.calls ∧
      t.engineOut = s.engineOut ∧ t.env = h.env ∧ t.kissTx = s.kissTx ++ h.tx.flatten ∧
      t.cmdTx = s.cmdTx ++ replyBytes s.cfg c h

/-- Error entry (R201, with the spec's decision D18 for the cleared registers): for each of the three parser errors exactly
`P` but for `PBUF`, `CMD_TX` and the event change. -/
def Obligations.ErrorEntry : Prop :=
  ∀ (s : State) (b : Byte) (i : Instr) (code : Byte),
    (i = .invalidCmd b ∧ code = s.cfg.errInvalidCmd) ∨
    (i = .len b ∧ code = s.cfg.errInvalidLen ∧ ∃ c, s.cfg.command? s.p.cmd = some c ∧ validLen s.cfg c b = false) ∨
    (i = .chklo b ∧ code = s.cfg.errChecksum ∧ cat (hi s.p.rx) b ≠ s.p.computed) →
    exec i s =
      .next { s with
        p := { st := .sync0, cmd := 0, len := 0, idx := 0, computed := 0, rx := 0, buf := s.p.buf },
        cmdTx := s.cmdTx ++ errReplyFrame s.cfg s.env.status code, event := .error code }

/-- R175, R199: a frame whose command id is not in the table ends the run with a fault when it would be dispatched. -/
def Obligations.ValidatedIdWithoutHandlerFaults : Prop :=
  ∀ (s : State) (b : Byte), s.cfg.command? s.p.cmd = none → cat (hi s.p.rx) b = s.p.computed →
    exec (.chklo b) s = .fault .unlistedCommand

/-- The model's choice for indices R40 says do not exist (log 15): storing at or above `MAX_PAYLOAD`, and appending to or
closing a KISS buffer longer than `KISS_CAP`, faults; so does a length byte for an unlisted id. -/
def Obligations.OutOfBoundsFaults : Prop :=
  ∀ (s : State) (b : Byte),
    (s.cfg.maxPayload ≤ s.p.idx.toNat → exec (.payload b) s = .fault .pbufIndex) ∧
    (s.cfg.kissCap < s.k.len → exec (.kdata b) s = .fault .kbufIndex ∧ exec .tfend s = .fault .kbufIndex ∧
      exec .tfesc s = .fault .kbufIndex ∧ exec .kissCmdData s = .fault .kbufIndex ∧
      exec .fendEnd s = .fault .kbufIndex) ∧
    (s.cfg.command? s.p.cmd = none → exec (.len b) s = .fault .unlistedCommand)

/-! ## Commands at their dispatch: what the contract fixes of the handler -/

/-- `NOP` (R160, R174): one empty success reply with command byte `id | 0x80`, whatever the handler answers. The model's choice,
log 5 (DEDUCED): nothing goes to `KISS_TX`, and the environment is unchanged but for `STATUS`. -/
def Obligations.NopAlwaysSucceeds : Prop :=
  ∀ (s : State) (b : Byte), s.cfg.command? s.p.cmd = some .nop → s.p.len.toNat ≤ s.cfg.maxPayload →
    cat (hi s.p.rx) b = s.p.computed →
    ∃ (t : State) (st : Byte), exec (.chklo b) s = .next t ∧ t.cmdTx = s.cmdTx ++ replyFrame s.cfg st s.cfg.idNop [] ∧
      t.kissTx = s.kissTx ∧ t.env = { s.env with status := t.env.status }

/-- `RESET` (R161): a valid frame causes no byte on `CMD_TX`, and the block is not reset by it: `K` is untouched. -/
def Obligations.ResetCommandSendsNoReply : Prop :=
  ∀ (s : State) (b : Byte), s.cfg.command? s.p.cmd = some .reset → s.p.len.toNat ≤ s.cfg.maxPayload →
    cat (hi s.p.rx) b = s.p.computed →
    ∃ t : State, exec (.chklo b) s = .next t ∧ t.cmdTx = s.cmdTx ∧ t.k = s.k ∧ t.dispatches = s.dispatches ++
      [⟨s.p.cmd, s.p.len, s.p.buf.pbufBytes s.p.len.toNat⟩]

/-- `READ_TXPWR` and `GET_QUEUE_DEPTH` (R162, R172): a success reply of two bytes, the value high byte first; the environment and
the KISS frames are the handler's answer's (R174). The model's choice, log 5 (DEDUCED): the value is the one held at the dispatch,
and these two handlers may report failure with any code, which gives one error reply. -/
def Obligations.ReadingCommandsReplyBigEndian : Prop :=
  ∀ (s : State) (b : Byte), s.p.len.toNat ≤ s.cfg.maxPayload → cat (hi s.p.rx) b = s.p.computed →
    (s.cfg.command? s.p.cmd = some .readTxpwr → s.response.failure = none →
      ∃ (t : State) (st h l : Byte), exec (.chklo b) s = .next t ∧ h.toNat * 256 + l.toNat = s.env.power.toNat ∧
        t.cmdTx = s.cmdTx ++ replyFrame s.cfg st s.cfg.idReadTxpwr [h, l] ∧ t.env = s.response.env ∧
        t.kissTx = s.kissTx ++ s.response.tx.flatMap (kenc s.cfg)) ∧
    (s.cfg.command? s.p.cmd = some .getQueueDepth → s.response.failure = none →
      ∃ (t : State) (st h l : Byte), exec (.chklo b) s = .next t ∧ h.toNat * 256 + l.toNat = s.env.depth.toNat ∧
        t.cmdTx = s.cmdTx ++ replyFrame s.cfg st s.cfg.idGetQueueDepth [h, l] ∧ t.env = s.response.env ∧
        t.kissTx = s.kissTx ++ s.response.tx.flatMap (kenc s.cfg)) ∧
    (∀ (c : Command) (e : ErrorKind), c ∈ [Command.readTxpwr, .getQueueDepth] → s.cfg.command? s.p.cmd = some c →
      s.response.failure = some e →
      ∃ (t : State) (st : Byte), exec (.chklo b) s = .next t ∧
        t.cmdTx = s.cmdTx ++ errReplyFrame s.cfg st (s.cfg.errCode e) ∧ t.env = s.response.env ∧
        t.kissTx = s.kissTx ++ s.response.tx.flatMap (kenc s.cfg))

/-- `SET_TXPWR` (R163): the two payload bytes, high byte first, become the power level, and the success reply is empty, unless
the handler reports failure (that it may is the model's choice, log 5, DEDUCED); the rest of the environment and the KISS frames
are the handler's answer's (R174). -/
def Obligations.SetTxpwrStoresItsOperand : Prop :=
  ∀ (s : State) (b : Byte), s.cfg.command? s.p.cmd = some .setTxpwr → s.p.len = 2 → 2 ≤ s.cfg.maxPayload →
    cat (hi s.p.rx) b = s.p.computed → s.response.failure = none →
    ∃ (t : State) (st : Byte), exec (.chklo b) s = .next t ∧
      t.env.power.toNat = (s.p.buf.readPbuf 0).toNat * 256 + (s.p.buf.readPbuf 1).toNat ∧
      t.env = { s.response.env with power := t.env.power } ∧
      t.cmdTx = s.cmdTx ++ replyFrame s.cfg st s.cfg.idSetTxpwr [] ∧
      t.kissTx = s.kissTx ++ s.response.tx.flatMap (kenc s.cfg)

/-- `SET_FREQ` (R171): the four payload bytes are a frequency in hertz, high byte first. The model's choice, log 21 (DEDUCED): a
handler that does not report failure stores it (R174 leaves that open); what a failure leaves is open. -/
def Obligations.SetFreqStoresItsOperand : Prop :=
  ∀ (s : State) (b : Byte), s.cfg.command? s.p.cmd = some .setFreq → s.p.len = 4 → 4 ≤ s.cfg.maxPayload →
    cat (hi s.p.rx) b = s.p.computed → s.response.failure = none →
    ∃ t : State, exec (.chklo b) s = .next t ∧
      t.env.freq.toNat = (s.p.buf.readPbuf 0).toNat * 2 ^ 24 + (s.p.buf.readPbuf 1).toNat * 2 ^ 16 +
        (s.p.buf.readPbuf 2).toNat * 2 ^ 8 + (s.p.buf.readPbuf 3).toNat

/-- `TXDATA` (R164, R104, R174): when the handler transmits, the KISS frame of exactly the payload goes to `KISS_TX`; when it does
not, nothing is claimed of the payload. The model's choice, log 21 (DEDUCED): the frame comes after the handler's others, so
`KISS_TX` ends with it. -/
def Obligations.TxdataTransmitsItsPayload : Prop :=
  ∀ (s : State) (b : Byte), s.cfg.command? s.p.cmd = some .txdata → s.p.len.toNat ≤ s.cfg.maxPayload →
    cat (hi s.p.rx) b = s.p.computed → s.response.failure = none → s.response.transmit = true →
    ∃ (t : State) (ahead : List Byte), exec (.chklo b) s = .next t ∧
      t.kissTx = s.kissTx ++ ahead ++ kenc s.cfg ((List.range s.p.len.toNat).map s.p.buf.readPbuf)

/-- Every command answers with at most one reply frame, to its own id or an error reply, and puts whole KISS frames on `KISS_TX`
(R40, R173, R174). -/
def Obligations.EveryDispatchSendsAtMostOneReply : Prop :=
  ∀ (s : State) (b : Byte) (c : Command), s.cfg.command? s.p.cmd = some c → s.p.len.toNat ≤ s.cfg.maxPayload →
    cat (hi s.p.rx) b = s.p.computed →
    ∃ t : State, exec (.chklo b) s = .next t ∧
      (t.cmdTx = s.cmdTx ∨
        (∃ (st : Byte) (q : List Byte), q.length ≤ 255 ∧ t.cmdTx = s.cmdTx ++ replyFrame s.cfg st (s.cfg.id c) q) ∨
        (∃ (st : Byte) (e : ErrorKind), t.cmdTx = s.cmdTx ++ errReplyFrame s.cfg st (s.cfg.errCode e))) ∧
      ∃ ps : List (List Byte), t.kissTx = s.kissTx ++ ps.flatMap (kenc s.cfg)

/-! ## The Reply Encoder -/

/-- R180: `REPLY` appends the sync bytes, the status byte when the reply shape has one, the id with the reply bit, the length,
the payload, and the checksum of all of that from zero, high byte first; nothing else changes. -/
def Obligations.ReplyRule : Prop :=
  ∀ (s : State) (c : BitVec 7) (q : List Byte), q.length ≤ 255 →
    ∃ body : List Byte,
      body = (if s.cfg.hasStatus then [s.env.status] else []) ++
        [c.setWidth 8 ||| s.cfg.replyBit, BitVec.ofNat 8 q.length] ++ q ∧
      exec (.reply c q) s =
        .next { s with
          cmdTx := s.cmdTx ++ ([s.cfg.syncHi, s.cfg.syncLo] ++ body ++
            [hi (fletcher s.cfg body), lo (fletcher s.cfg body)]),
          event := .none }

/-- R181: `ERRREPLY` appends the sync bytes, the status byte when there is one, `ERR_REPLY_CMD`, length 1, the code, and the
checksum; nothing else changes. -/
def Obligations.ErrorReplyRule : Prop :=
  ∀ (s : State) (e : Byte), ∃ body : List Byte,
    body = (if s.cfg.hasStatus then [s.env.status] else []) ++ [s.cfg.errReplyCmd, 1#8, e] ∧
    exec (.errreply e) s =
      .next { s with
        cmdTx := s.cmdTx ++ ([s.cfg.syncHi, s.cfg.syncLo] ++ body ++
          [hi (fletcher s.cfg body), lo (fletcher s.cfg body)]),
        event := .none }

/-- R182: `RXREPLY` is the success reply to `ID_RXDATA`; nothing else changes. -/
def Obligations.ReceivedDataReplyRule : Prop :=
  ∀ (s : State) (q : List Byte), q.length ≤ 255 →
    exec (.rxreply q) s =
      .next { s with cmdTx := s.cmdTx ++ replyFrame s.cfg s.env.status s.cfg.idRxdata q, event := .none }

/-- R118, U17: when `KISS_CAP` exceeds 256, the delivery of a KISS frame whose payload no `LEN` byte can count is refused, never
truncated. The model's choice, log 16 (DEDUCED) and log 7: `REPLY` and `RXREPLY` asked for such a payload, for which R185 gives
no format, are refused too. -/
def Obligations.OverlongRepliesAreRefused : Prop :=
  ∀ (s : State) (c : BitVec 7) (q : List Byte),
    (255 < q.length → exec (.reply c q) s = .refused .replyTooLong ∧ exec (.rxreply q) s = .refused .replyTooLong) ∧
    (256 < s.k.len → s.k.len ≤ s.cfg.kissCap → s.k.esc = false → s.k.buf.readKbuf 0 = s.cfg.kissCmdData →
      exec .fendEnd s = .refused .replyTooLong)

/-- R183: emission byte by byte with the transient accumulator gives the same bytes as the whole-frame rule. -/
def Obligations.SerialEmissionIsTheFrame : Prop :=
  ∀ (cfg : Config) (body : List Byte), serialEmit cfg body = framed cfg body

/-- R180's corner case: the status byte adds `st` to the high and `(3 + len(q)) * st` to the low checksum byte (decided reading
of the update, log 18). -/
def Obligations.StatusByteMovesBothChecksumBytes : Prop :=
  ∀ (cfg : Config) (st c : Byte) (q : List Byte), cfg.wf = true → cfg.checksum = .newHigh → cfg.hasStatus = true →
    hi (fletcher cfg (replyBody cfg st c q)) = hi (fletcher cfg (replyBody cfg 0 c q)) + st ∧
    (lo (fletcher cfg (replyBody cfg st c q))).toNat =
      ((lo (fletcher cfg (replyBody cfg 0 c q))).toNat + (3 + q.length) * st.toNat) % 256

/-- R209: what stands on `CMD_TX` stays a concatenation of whole reply frames through every step. -/
def Obligations.OnlyWholeRepliesAreEmitted : Prop :=
  ∀ s t : State, s.cfg.wf = true → WholeReplies s.cfg s.cmdTx → step s = .next t → WholeReplies t.cfg t.cmdTx

/-! ## The Checksum Engine -/

/-- R90 and the alternative reading (D1): the high byte adds the input modulo 256; the low byte adds the new high byte, or the
old one under `F_ALT`; carries are dropped; nothing but the engine's output changes. -/
def Obligations.ChecksumUpdateRule : Prop :=
  ∀ (s : State) (acc : Half) (c : Byte), ∃ v : Half,
    exec (.f acc c) s = .next { s with engineOut := v, event := .none } ∧
    (hi v).toNat = ((hi acc).toNat + c.toNat) % 256 ∧
    (s.cfg.checksum = .newHigh → (lo v).toNat = ((lo acc).toNat + (hi v).toNat) % 256) ∧
    (s.cfg.checksum = .oldHigh → (lo v).toNat = ((lo acc).toNat + (hi acc).toNat) % 256)

/-- R91: the checksum of the empty sequence is zero, and one more byte is one more update. -/
def Obligations.ChecksumIsAFold : Prop :=
  ∀ cfg : Config, cfg.wf = true →
    fletcher cfg [] = 0x0000#16 ∧
    ∀ (s t : List Byte) (c : Byte), fletcher cfg (s ++ [c]) = fStep cfg (fletcher cfg s) c ∧
      fletcher cfg (s ++ t) = t.foldl (fStep cfg) (fletcher cfg s)

/-- R92: the closed form of both halves (decided reading of the update, log 18). -/
def Obligations.ChecksumClosedForm : Prop :=
  ∀ (cfg : Config) (s : List Byte), cfg.wf = true → cfg.checksum = .newHigh →
    (hi (fletcher cfg s)).toNat = (s.map BitVec.toNat).sum % 256 ∧
    (lo (fletcher cfg s)).toNat =
      ((List.range s.length).map fun i => (s.length - i) * (s.getD i 0).toNat).sum % 256

/-- R94: changing exactly one byte of a sequence changes the high half of its checksum, under either reading of the update. -/
def Obligations.SingleByteChangeIsDetected : Prop :=
  ∀ (cfg : Config) (before after : List Byte) (x y : Byte), x ≠ y →
    hi (fletcher cfg (before ++ x :: after)) ≠ hi (fletcher cfg (before ++ y :: after))

/-! ## The KISS encoder -/

/-- R101: `KESC` on the delimiter, the escape byte, and every other byte, as operations of the encoder; only `KISS_TX` grows. -/
def Obligations.EscapeRule : Prop :=
  ∀ s : State, s.cfg.wf = true →
    exec .kescFend s = .next { s with kissTx := s.kissTx ++ [s.cfg.fesc, s.cfg.tfend], event := .none } ∧
    exec .kescFesc s = .next { s with kissTx := s.kissTx ++ [s.cfg.fesc, s.cfg.tfesc], event := .none } ∧
    ∀ b : Byte, b ≠ s.cfg.fend → b ≠ s.cfg.fesc →
      exec (.kescLiteral b) s = .next { s with kissTx := s.kissTx ++ [b], event := .none }

/-- `KENC_START` and `KENC_END` (R102): delimiter and command byte, and delimiter; only `KISS_TX` grows. -/
def Obligations.EncoderOpenAndCloseRule : Prop :=
  ∀ s : State,
    exec .kencOpen s = .next { s with kissTx := s.kissTx ++ [s.cfg.fend, s.cfg.kissCmdData], event := .none } ∧
    exec .kencClose s = .next { s with kissTx := s.kissTx ++ [s.cfg.fend], event := .none }

/-- R102: `KENC_START`, `KENC_BYTE` for each payload byte in order, and `KENC_END`, asked for inside a step, put exactly
`KENC(p)` on `KISS_TX` within that one step. -/
def Obligations.EncoderOperationsSpellTheFrame : Prop :=
  ∀ (s : State) (p : List Byte), s.calls = .kencStart :: p.map .kencByte ++ [.kencEnd] →
    step s = .next { s with calls := [], kissTx := s.kissTx ++ kenc s.cfg p, event := .none }

/-- R103 (i), (ii): the delimiter occurs in an encoded frame exactly twice, at its ends, and the length is
`3 + len(p) + k`. -/
def Obligations.EncodedFrameShape : Prop :=
  ∀ (cfg : Config) (p : List Byte), cfg.wf = true →
    (kenc cfg p).count cfg.fend = 2 ∧ (kenc cfg p).head? = some cfg.fend ∧ (kenc cfg p).getLast? = some cfg.fend ∧
    (kenc cfg p).length = 3 + p.length + p.countP (fun b => b = cfg.fend ∨ b = cfg.fesc)

/-- R103 (iv): different payloads give different frames. -/
def Obligations.EncodingIsInjective : Prop :=
  ∀ (cfg : Config) (p q : List Byte), cfg.wf = true → kenc cfg p = kenc cfg q → p = q

/-! ## The KISS decoder's instructions -/

/-- The three cases that store nothing and report nothing: padding delimiter (R111), discarding (R113), escape (R115). That
the delimiter clears both flags, and the flag `K.drop`, are the spec's decisions D6 and D7; that the escape is not stored is
D5. -/
def Obligations.PaddingDropAndEscapeRule : Prop :=
  ∀ (s : State) (b : Byte),
    exec .fendPad s = .next { s with k := { s.k with esc := false, drop := false }, event := .none } ∧
    exec (.kdrop b) s = .next { s with event := .none } ∧
    exec .fesc s = .next { s with k := { s.k with esc := true }, event := .none }

/-- End of frame (R112, R118; the dangling escape is decision D7, the empty payload D19): the three outcomes in order, the
buffer and both flags cleared, the RX-data reply of a good frame in the same step, nothing else changed. -/
def Obligations.EndOfFrameRule : Prop :=
  ∀ s : State, s.k.len ≤ s.cfg.kissCap →
    (s.k.esc = true →
      exec .fendEnd s = .next { s with k := { s.k with len := 0, esc := false, drop := false },
                                       event := .kerr .danglingEsc }) ∧
    (s.k.esc = false → s.k.buf.readKbuf 0 ≠ s.cfg.kissCmdData →
      exec .fendEnd s = .next { s with k := { s.k with len := 0, esc := false, drop := false },
                                       event := .kerr .badCmd }) ∧
    (s.k.esc = false → s.k.buf.readKbuf 0 = s.cfg.kissCmdData → s.k.len ≤ 256 →
      ∃ q : List Byte, q = (List.range (s.k.len - 1)).map (fun i => s.k.buf.readKbuf (i + 1)) ∧
        exec .fendEnd s = .next { s with
          k := { s.k with len := 0, esc := false, drop := false }, event := .rxframe q,
          cmdTx := s.cmdTx ++ replyFrame s.cfg s.env.status s.cfg.idRxdata q })

/-- Transposed codes (R114; decisions D5, D6): with room in the buffer the literal is stored at `KBUF[K.len]` and nowhere else;
an unrecognised code empties the buffer and discards the rest of the frame, full buffer or not (R200). -/
def Obligations.TransposedCodeRule : Prop :=
  ∀ (s : State) (b : Byte),
    (s.k.len < s.cfg.kissCap →
      ∀ i v, (i = Instr.tfend ∧ v = s.cfg.fend) ∨ (i = Instr.tfesc ∧ v = s.cfg.fesc) →
        ∃ m : Memory,
          exec i s = .next { s with k := { s.k with buf := m, len := s.k.len + 1, esc := false }, event := .none } ∧
          m.readKbuf s.k.len = v ∧ ∀ a, a ≠ s.k.len → m.readKbuf a = s.k.buf.readKbuf a) ∧
    (s.k.len = s.cfg.kissCap →
      ∀ i ∈ [Instr.tfend, .tfesc],
        exec i s = .next { s with k := { s.k with len := 0, esc := false, drop := true },
                                  event := .kerr .overflow }) ∧
    exec (.badTransposed b) s =
      .next { s with k := { s.k with len := 0, esc := false, drop := true }, event := .kerr .badEsc }

/-- R116, R117: a literal byte (the command byte "data frame" among them) is stored at `KBUF[K.len]` and nowhere else while
there is room; on a full buffer it is lost with the frame. -/
def Obligations.AppendRule : Prop :=
  ∀ (s : State) (i : Instr) (v : Byte), i = .kdata v ∨ (i = .kissCmdData ∧ v = s.cfg.kissCmdData) →
    (s.k.len < s.cfg.kissCap →
      ∃ m : Memory,
        exec i s = .next { s with k := { s.k with buf := m, len := s.k.len + 1 }, event := .none } ∧
        m.readKbuf s.k.len = v ∧ ∀ a, a ≠ s.k.len → m.readKbuf a = s.k.buf.readKbuf a) ∧
    (s.k.len = s.cfg.kissCap →
      exec i s = .next { s with k := { s.k with len := 0, drop := true }, event := .kerr .overflow })

/-- R119, R197: a decoder turn that ends in a decode error puts nothing on either output, leaves `P` and the environment with
`STATUS`, and empties the buffer, so that the stream goes on. -/
def Obligations.KissErrorsAreSilent : Prop :=
  ∀ (s t : State) (b : Byte) (bs : List Byte) (ts : List Turn) (r : KissError),
    s.calls = [] → s.sched = .decoder :: ts → s.kissRx = b :: bs → step s = .next t → t.event = .kerr r →
    t.cmdTx = s.cmdTx ∧ t.kissTx = s.kissTx ∧ t.p = s.p ∧ t.env = s.env ∧ t.dispatches = s.dispatches ∧
      t.kissRx = bs ∧ t.k.len = 0 ∧ t.k.esc = false

/-- R22 (iii): a decoder turn that stores the delimiter's value had an escape pending and was given the transposed delimiter. -/
def Obligations.StoredDelimiterWasTransposed : Prop :=
  ∀ (s t : State) (b : Byte) (bs : List Byte) (ts : List Turn), s.cfg.wf = true →
    s.calls = [] → s.sched = .decoder :: ts → s.kissRx = b :: bs → step s = .next t → t.k.len = s.k.len + 1 →
    t.k.buf.readKbuf s.k.len = s.cfg.fend → s.k.esc = true ∧ b = s.cfg.tfend

/-! ## Runs -/

/-- R120: a decoder with an empty buffer and no escape pending, fed `KENC(p)`, delivers exactly one RX-data reply carrying `p`,
at the last byte, and is empty again. -/
def Obligations.KissRoundTrip : Prop :=
  ∀ (s : State) (p rest : List Byte) (ts : List Turn), s.cfg.wf = true → s.calls = [] → s.k.len = 0 →
    s.k.esc = false →
    1 + p.length ≤ s.cfg.kissCap → p.length ≤ 255 →
    s.kissRx = kenc s.cfg p ++ rest → s.sched = turns (kenc s.cfg p).length .decoder ts →
    ∃ t : State, Sys2Proof.core.run (kenc s.cfg p).length s = .next t ∧ t.event = .rxframe p ∧
      t.cmdTx = s.cmdTx ++ rxReplyFrame s.cfg s.env.status p ∧ t.kissTx = s.kissTx ∧
      t.k.len = 0 ∧ t.k.esc = false ∧ t.k.drop = false ∧ t.p = s.p ∧ t.kissRx = rest ∧ t.sched = ts

/-- R142 (ii): valid frames fed back to back are each dispatched exactly once, in order, whatever bytes they hold. -/
def Obligations.BackToBackFramesAreDispatched : Prop :=
  ∀ (frames : List (Command × List Byte)) (s : State) (rest : List Byte) (ts : List Turn), s.cfg.wf = true →
    s.calls = [] → s.p.st = .sync0 →
    (∀ f ∈ frames, f.2.length ≤ 255 ∧ validLen s.cfg f.1 (lenByte f.2) = true) →
    s.cmdRx = frames.flatMap (fun f => commandFrame s.cfg (s.cfg.id f.1) f.2) ++ rest →
    s.sched = turns (frames.map fun f => 6 + f.2.length).sum .parser ts →
    ∃ t : State, Sys2Proof.core.run (frames.map fun f => 6 + f.2.length).sum s = .next t ∧
      t.dispatches = s.dispatches ++ frames.map (fun f => ⟨s.cfg.id f.1, lenByte f.2, f.2⟩) ∧
      t.p.st = .sync0 ∧ t.cmdRx = rest ∧ t.sched = ts

/-- R142 (iii): noise without the adjacent sync pair before a valid frame puts nothing out and dispatches nothing, and the frame
is dispatched. -/
def Obligations.LeadingNoiseIsHarmless : Prop :=
  ∀ (s : State) (noise q rest : List Byte) (c : Command) (ts : List Turn), s.cfg.wf = true → s.calls = [] →
    s.p.st = .sync0 → ¬ [s.cfg.syncHi, s.cfg.syncLo] <:+: noise →
    q.length ≤ 255 → validLen s.cfg c (lenByte q) = true →
    s.cmdRx = noise ++ commandFrame s.cfg (s.cfg.id c) q ++ rest →
    s.sched = turns (noise.length + (6 + q.length)) .parser ts →
    ∃ u t : State, Sys2Proof.core.run noise.length s = .next u ∧ u.cmdTx = s.cmdTx ∧ u.kissTx = s.kissTx ∧
      u.dispatches = s.dispatches ∧ Sys2Proof.core.run (6 + q.length) u = .next t ∧
      t.dispatches = s.dispatches ++ [⟨s.cfg.id c, lenByte q, q⟩] ∧ t.p.st = .sync0 ∧ t.cmdRx = rest ∧ t.sched = ts

/-- R142 (v): a frame with correct sync, command, length and payload and any wrong checksum yields exactly one
checksum-mismatch reply, no dispatch, and a parser ready for the next frame. -/
def Obligations.WrongChecksumGivesOneErrorReply : Prop :=
  ∀ (s : State) (q rest : List Byte) (c : Command) (h l : Byte) (ts : List Turn), s.cfg.wf = true → s.calls = [] →
    s.p.st = .sync0 → q.length ≤ 255 → validLen s.cfg c (lenByte q) = true →
    cat h l ≠ fletcher s.cfg ([s.cfg.id c, lenByte q] ++ q) →
    s.cmdRx = [s.cfg.syncHi, s.cfg.syncLo, s.cfg.id c, lenByte q] ++ q ++ [h, l] ++ rest →
    s.sched = turns (6 + q.length) .parser ts →
    ∃ t : State, Sys2Proof.core.run (6 + q.length) s = .next t ∧
      t.cmdTx = s.cmdTx ++ errReplyFrame s.cfg s.env.status s.cfg.errChecksum ∧ t.kissTx = s.kissTx ∧
      t.dispatches = s.dispatches ∧ t.env = s.env ∧ t.p.st = .sync0 ∧ t.cmdRx = rest

/-! ## The whole machine -/

/-- R27, R220: what reset leaves where the spec gives a value (the zeros of `P`'s data registers and of the flags are its
decision D14), for every configuration and environment. -/
def Obligations.ResetValues : Prop :=
  ∀ (cfg : Config) (env : Env) (s : State), s = State.created cfg env →
    s.p = { st := .sync0, cmd := 0, len := 0, idx := 0, computed := 0, rx := 0, buf := [] } ∧
    s.k = { buf := [], len := 0, esc := false, drop := false } ∧
    s.cmdTx = [] ∧ s.kissTx = [] ∧ s.cfg = cfg ∧ s.env = env ∧ State.reset.p = s.p ∧ State.reset.k = s.k ∧
    State.reset.cfg = Config.decided

/-- The invariant holds at reset under every well-formed configuration, and the decided one is well formed. -/
def Obligations.InvariantAtReset : Prop :=
  (∀ (cfg : Config) (env : Env), cfg.wf = true → Inv (State.created cfg env)) ∧ Inv State.reset

/-- R17, R22: every step keeps the invariant. -/
def Obligations.StepKeepsTheInvariant : Prop :=
  ∀ s t : State, Inv s → step s = .next t → Inv t

/-- From a state with the invariant no step faults, and the only refusal, when `KISS_CAP` exceeds 256, is of a payload no reply
can carry. -/
def Obligations.NoFaultIsReachable : Prop :=
  ∀ s : State, Inv s →
    (∀ r, step s ≠ .fault r) ∧
    (∀ r, step s = .refused r → r = .replyTooLong ∧ 256 < s.cfg.kissCap)

/-- R52: no step changes the configuration or the command table, and input bytes are only ever consumed from the head. -/
def Obligations.ConfigurationAndInputsAreImmutable : Prop :=
  ∀ s t : State, step s = .next t →
    t.cfg = s.cfg ∧ t.cfg.cmdtab = s.cfg.cmdtab ∧
    (t.cmdRx = s.cmdRx ∨ ∃ b, s.cmdRx = b :: t.cmdRx) ∧ (t.kissRx = s.kissRx ∨ ∃ b, s.kissRx = b :: t.kissRx)

/-- R25: the two agents share nothing. What a parser turn does is the same whatever `K` is, and it leaves `K` alone; what a
decoder turn does is the same whatever `P` is, and it leaves `P` alone; every other move leaves both alone. -/
def Obligations.AgentsShareNothing : Prop :=
  ∀ (s t : State) (ts : List Turn), step s = .next t →
    (s.sched = .parser :: ts → t.k = s.k ∧ ∀ k, step { s with k := k } = .next { t with k := k }) ∧
    (s.sched = .decoder :: ts → t.p = s.p ∧ ∀ p, step { s with p := p } = .next { t with p := p }) ∧
    ((∀ ts', s.sched ≠ .parser :: ts') → t.p = s.p) ∧ ((∀ ts', s.sched ≠ .decoder :: ts') → t.k = s.k)

/-- R26, R49: the outputs and the record of dispatches only grow, each step appending at the end. -/
def Obligations.OutputsOnlyGrow : Prop :=
  ∀ s t : State, step s = .next t →
    s.cmdTx <+: t.cmdTx ∧ s.kissTx <+: t.kissTx ∧ s.dispatches <+: t.dispatches
end

