-- ==== Sys2Proof/Laws/Checksum.lean ====
section
/-! SUPPORT. The laws of halves, of the one-byte update and of its fold (40_checksum.md). -/

namespace Sys2Proof.Machine

theorem toNat_hi (v : Half) : (hi v).toNat = v.toNat / 256 := by
  simp only [hi, BitVec.extractLsb'_toNat, Nat.shiftRight_eq_div_pow]
  have := v.isLt
  omega

theorem toNat_lo (v : Half) : (lo v).toNat = v.toNat % 256 := by
  simp [lo]

theorem toNat_cat (h l : Byte) : (cat h l).toNat = h.toNat * 256 + l.toNat := by
  have := h.isLt
  have := l.isLt
  simp only [cat, BitVec.toNat_ofNat]
  omega

@[simp] theorem hi_cat (h l : Byte) : hi (cat h l) = h := by
  have := l.isLt
  refine BitVec.eq_of_toNat_eq ?_
  rw [toNat_hi, toNat_cat]
  omega

@[simp] theorem lo_cat (h l : Byte) : lo (cat h l) = l := by
  have := l.isLt
  refine BitVec.eq_of_toNat_eq ?_
  rw [toNat_lo, toNat_cat]
  omega

@[simp] theorem cat_hi_lo (v : Half) : cat (hi v) (lo v) = v := by
  refine BitVec.eq_of_toNat_eq ?_
  rw [toNat_cat, toNat_hi, toNat_lo]
  omega

theorem cat_inj {a b c d : Byte} : cat a b = cat c d ↔ a = c ∧ b = d := by
  constructor
  · intro h
    exact ⟨by simpa using congrArg hi h, by simpa using congrArg lo h⟩
  · rintro ⟨rfl, rfl⟩; rfl

/-- "high byte adds the input" under either reading of the update (R90, D1). -/
@[simp] theorem hi_fStep (cfg : Config) (acc : Half) (c : Byte) : hi (fStep cfg acc c) = hi acc + c := by
  unfold fStep; cases cfg.checksum <;> simp

theorem lo_fStep_newHigh {cfg : Config} (h : cfg.checksum = .newHigh) (acc : Half) (c : Byte) :
    lo (fStep cfg acc c) = lo acc + (hi acc + c) := by
  simp [fStep, h]

theorem lo_fStep_oldHigh {cfg : Config} (h : cfg.checksum = .oldHigh) (acc : Half) (c : Byte) :
    lo (fStep cfg acc c) = lo acc + hi acc := by
  simp [fStep, h]

@[simp] theorem fletcher_nil (cfg : Config) : fletcher cfg [] = cfg.seed := rfl

theorem fletcher_append (cfg : Config) (s t : List Byte) :
    fletcher cfg (s ++ t) = t.foldl (fStep cfg) (fletcher cfg s) := by
  simp [fletcher]

/-- Incrementality (R91): how the parser computes it, one byte per step. -/
theorem fletcher_concat (cfg : Config) (s : List Byte) (c : Byte) :
    fletcher cfg (s ++ [c]) = fStep cfg (fletcher cfg s) c := by
  simp [fletcher_append]

theorem fletcher_single (cfg : Config) (c : Byte) : fletcher cfg [c] = fStep cfg cfg.seed c := rfl

/-- The high half of a fold is the running sum. -/
theorem hi_foldl (cfg : Config) (s : List Byte) (acc : Half) :
    hi (s.foldl (fStep cfg) acc) = hi acc + s.sum := by
  induction s generalizing acc with
  | nil => simp
  | cons c s ih => simp [ih, BitVec.add_assoc]

end Sys2Proof.Machine
end

