-- ==== Sys2Proof/Laws/Decode.lean ====
section
/-! SUPPORT. Laws of the command table, of a well-formed configuration, and of the decoder. -/

namespace Sys2Proof

theorem Command.mem_all (c : Command) : c ∈ Command.all := by cases c <;> decide

variable {cfg : Config} {b : Byte} {c d : Command}

theorem Config.id_of_command? (h : cfg.command? b = some c) : cfg.id c = b := by
  have := List.find?_some h
  simpa using this

theorem Config.command?_eq_none : cfg.command? b = none ↔ ∀ c, cfg.id c ≠ b := by
  simp only [Config.command?, List.find?_eq_none, beq_iff_eq]
  exact ⟨fun h c => h c c.mem_all, fun h c _ => h c⟩

theorem Config.cmdtab_isSome : (cfg.cmdtab b).isSome = (cfg.command? b).isSome := by
  simp [Config.cmdtab]

/-- The parts of a well-formed configuration that the block's rules rest on (R4, R222). -/
structure Config.Good (cfg : Config) : Prop where
  ids_distinct : ∀ c d, cfg.id c = cfg.id d → c = d
  id_bit7 : ∀ c, (cfg.id c).getLsbD 7 = false
  max_le : cfg.maxPayload ≤ 255
  max_lt_cap : cfg.maxPayload < cfg.kissCap
  sync_ne : cfg.syncHi ≠ cfg.syncLo
  fend_fesc : cfg.fend ≠ cfg.fesc
  fend_tfend : cfg.fend ≠ cfg.tfend
  fend_tfesc : cfg.fend ≠ cfg.tfesc
  fesc_tfend : cfg.fesc ≠ cfg.tfend
  fesc_tfesc : cfg.fesc ≠ cfg.tfesc
  tfend_tfesc : cfg.tfend ≠ cfg.tfesc
  data_fend : cfg.kissCmdData ≠ cfg.fend
  data_fesc : cfg.kissCmdData ≠ cfg.fesc
  reply_bit : cfg.replyBit = 0x80#8
  err_bit7 : cfg.errReplyCmd.getLsbD 7 = true
  seed_zero : cfg.seed = 0
  rx_bit7 : cfg.idRxdata.getLsbD 7 = false
  rx_free : cfg.command? cfg.idRxdata = none

theorem Config.good_of_wf (h : cfg.wf = true) : cfg.Good := by
  simp only [Config.wf, Config.tableOk, Config.sizesOk, Config.bytesOk, Config.codesOk, Config.repliesOk,
    Bool.and_eq_true, decide_eq_true_eq] at h
  obtain ⟨⟨⟨⟨⟨hn, hall, -⟩, -, h2, h3, -⟩, h4, hb, h5, h6⟩, -⟩, h7, h8, h9, h10, h11⟩ := h
  have hid : ∀ c, cfg.requestId (cfg.id c) = true := fun c => List.all_eq_true.mp hall c c.mem_all
  have hreq : ∀ x, cfg.requestId x = true → x.getLsbD 7 = false := fun x hx => by
    simp only [Config.requestId, Bool.and_eq_true, Bool.not_eq_true'] at hx
    exact hx.1.1
  simp only [List.nodup_cons, List.mem_cons, List.not_mem_nil, or_false, not_or, not_false_eq_true, List.nodup_nil,
    and_true] at hb
  exact {
    ids_distinct := fun c d e => (List.nodup_map_iff_inj_on (by decide)).mp hn c c.mem_all d d.mem_all e
    id_bit7 := fun c => hreq _ (hid c)
    max_le := h2
    max_lt_cap := h3
    sync_ne := h4
    fend_fesc := hb.1.1
    fend_tfend := hb.1.2.1
    fend_tfesc := hb.1.2.2
    fesc_tfend := hb.2.1.1
    fesc_tfesc := hb.2.1.2
    tfend_tfesc := hb.2.2
    data_fend := h5
    data_fesc := h6
    reply_bit := h7
    err_bit7 := h8
    seed_zero := h9
    rx_bit7 := hreq _ h10
    rx_free := h11 }

/-- Under a well-formed table a command's id is looked up as that command. -/
theorem Config.Good.command?_id (g : cfg.Good) (c : Command) : cfg.command? (cfg.id c) = some c := by
  cases h : cfg.command? (cfg.id c) with
  | none => exact absurd rfl (Config.command?_eq_none.mp h c)
  | some d => rw [g.ids_distinct d c (Config.id_of_command? h)]

/-- In state `CMD` a byte of the table is its command's instruction. -/
theorem decodeCmdByte_command (h : cfg.command? b = some c) : decodeCmdByte cfg b .cmd = c.instr := by
  simp [decodeCmdByte, h]

theorem decodeCmdByte_invalid (h : cfg.command? b = none) : decodeCmdByte cfg b .cmd = .invalidCmd b := by
  simp [decodeCmdByte, h]

end Sys2Proof
end

