-- ==== Sys2Proof/Laws/Memory.lean ====
section
/-! SUPPORT. The laws of the two buffers: read after write, everything else unchanged, and the canonical form. -/

namespace Sys2Proof.Machine

variable {m : Memory} {i j : Nat} {v : Byte}

theorem Memory.get?_write (m : Memory) (i j : Nat) (v : Byte) :
    (m.write i v).get? j = if i = j then some v else m.get? j := by
  induction m with
  | nil => rfl
  | cons c m ih =>
    obtain ⟨a, w⟩ := c
    simp only [Memory.write]
    split_ifs <;> simp only [Memory.get?, ih] <;> grind

@[simp] theorem Memory.get?_write_self : (m.write i v).get? i = some v := by
  simp [Memory.get?_write]

theorem Memory.get?_write_ne (h : i ≠ j) : (m.write i v).get? j = m.get? j := by
  simp [Memory.get?_write, h]

theorem Memory.isSome_write : ((m.write i v).get? j).isSome ↔ j = i ∨ (m.get? j).isSome := by
  rw [Memory.get?_write]
  split_ifs with h
  · simp [h]
  · simp [Ne.symm h]

/-- The addresses of a canonical memory lie above any bound its head lies above. -/
theorem Memory.wf_cons {a : Nat} {w : Byte} :
    Memory.wf ((a, w) :: m) = true ↔ (∀ c ∈ m.head?, a < c.1) ∧ m.wf = true := by
  cases m with
  | nil => simp [Memory.wf]
  | cons c m => obtain ⟨b, x⟩ := c; simp [Memory.wf]

theorem Memory.head_write (m : Memory) (i : Nat) (v : Byte) :
    ∀ c ∈ (m.write i v).head?, c.1 = i ∨ ∃ d ∈ m.head?, c.1 = d.1 := by
  cases m with
  | nil => simp [Memory.write]
  | cons d m =>
    obtain ⟨a, w⟩ := d
    simp only [Memory.write]
    split_ifs <;> simp

/-- Every write keeps the canonical form. -/
theorem Memory.wf_write (h : m.wf = true) : (m.write i v).wf = true := by
  induction m with
  | nil => rfl
  | cons d m ih =>
    obtain ⟨a, w⟩ := d
    rw [Memory.wf_cons] at h
    simp only [Memory.write]
    split_ifs with h1 h2
    · simp [Memory.wf, h1, Memory.wf_cons.mpr h]
    · subst h2; exact Memory.wf_cons.mpr h
    · refine Memory.wf_cons.mpr ⟨fun c hc => ?_, ih h.2⟩
      rcases Memory.head_write m i v c hc with e | ⟨d, hd, e⟩
      · omega
      · rw [e]; exact h.1 d hd

/-- Both buffers are canonical at reset. -/
theorem Memory.wf_reset : State.reset.p.buf.wf = true ∧ State.reset.k.buf.wf = true := ⟨rfl, rfl⟩

@[simp] theorem Memory.readPbuf_write_self : (m.write i v).readPbuf i = v := by
  simp [Memory.readPbuf]

theorem Memory.readPbuf_write_ne (h : i ≠ j) : (m.write i v).readPbuf j = m.readPbuf j := by
  simp [Memory.readPbuf, Memory.get?_write_ne h]

@[simp] theorem Memory.readKbuf_write_self : (m.write i v).readKbuf i = v := by
  simp [Memory.readKbuf]

theorem Memory.readKbuf_write_ne (h : i ≠ j) : (m.write i v).readKbuf j = m.readKbuf j := by
  simp [Memory.readKbuf, Memory.get?_write_ne h]

@[simp] theorem Memory.pbufBytes_zero : m.pbufBytes 0 = [] := rfl

@[simp] theorem Memory.length_pbufBytes (n : Nat) : (m.pbufBytes n).length = n := by
  simp [Memory.pbufBytes]

theorem Memory.pbufBytes_succ (n : Nat) : m.pbufBytes (n + 1) = m.pbufBytes n ++ [m.readPbuf n] := by
  simp [Memory.pbufBytes, List.range_succ]

/-- A write at or above `n` leaves the first `n` bytes alone. -/
theorem Memory.pbufBytes_write_ge {n : Nat} (h : n ≤ i) : (m.write i v).pbufBytes n = m.pbufBytes n := by
  simp only [Memory.pbufBytes]
  refine List.map_congr_left fun a ha => ?_
  rw [List.mem_range] at ha
  exact Memory.readPbuf_write_ne (by omega)

/-- Appending at the end of the first `n` bytes (R135). -/
theorem Memory.pbufBytes_append (n : Nat) : (m.write n v).pbufBytes (n + 1) = m.pbufBytes n ++ [v] := by
  rw [Memory.pbufBytes_succ, Memory.pbufBytes_write_ge le_rfl, Memory.readPbuf_write_self]

@[simp] theorem Memory.length_kbufPayload (n : Nat) : (m.kbufPayload n).length = n - 1 := by
  simp [Memory.kbufPayload]

/-- Appending to `KBUF` after its command byte (R117). -/
theorem Memory.kbufPayload_append {n : Nat} (h : 0 < n) :
    (m.write n v).kbufPayload (n + 1) = m.kbufPayload n ++ [v] := by
  obtain ⟨k, rfl⟩ : ∃ k, n = k + 1 := ⟨n - 1, by omega⟩
  simp only [Memory.kbufPayload, Nat.add_sub_cancel, List.range_succ, List.map_append, List.map_cons, List.map_nil,
    Memory.readKbuf_write_self]
  congr 1
  refine List.map_congr_left fun a ha => ?_
  rw [List.mem_range] at ha
  exact Memory.readKbuf_write_ne (by omega)

end Sys2Proof.Machine
end

