-- ==== Sys2Proof/Laws/PerInstr.lean ====
section
/-! SUPPORT. The family EncodedInPlace: every instruction's encoding stands on the stream, and has the number of bytes, that
its row of opcode_table.json gives it (30_encoding.md R60, R61, R72). -/

namespace Sys2Proof.Laws

/-- Which agent's turn takes an encoding; a unit operation has none (R6). -/
def turnOf : Fetch → Option Machine.Turn
  | .cmdByte _ _ => some .parser
  | .kissByte _ _ _ _ => some .decoder
  | .call _ => none

/-- The agent that takes an instruction: the parser for the fields of a command frame, the decoder for the bytes of a KISS
frame, none for the operations of the encoders and the engine. -/
def agent : Instr → Option Machine.Turn
  | .nop => some .parser
  | .reset => some .parser
  | .txdata => some .parser
  | .txAbort => some .parser
  | .txPsr => some .parser
  | .getCfg => some .parser
  | .setCfg => some .parser
  | .saveCfg => some .parser
  | .cfgDefault => some .parser
  | .setFreq => some .parser
  | .getQueueDepth => some .parser
  | .readTxpwr => some .parser
  | .setTxpwr => some .parser
  | .invalidCmd _ => some .parser
  | .syncHi _ => some .parser
  | .syncLo _ => some .parser
  | .len _ => some .parser
  | .payload _ => some .parser
  | .chkhi _ => some .parser
  | .chklo _ => some .parser
  | .reply _ _ => none
  | .errreply _ => none
  | .rxreply _ => none
  | .fendPad => some .decoder
  | .fendEnd => some .decoder
  | .kdrop _ => some .decoder
  | .tfend => some .decoder
  | .tfesc => some .decoder
  | .badTransposed _ => some .decoder
  | .fesc => some .decoder
  | .kdata _ => some .decoder
  | .kissCmdData => some .decoder
  | .kencOpen => none
  | .kescFend => none
  | .kescFesc => none
  | .kescLiteral _ => none
  | .kencClose => none
  | .f _ _ => none

/-- The bytes an instruction's encoding has. -/
def size : Instr → Nat
  | .nop => 1
  | .reset => 1
  | .txdata => 1
  | .txAbort => 1
  | .txPsr => 1
  | .getCfg => 1
  | .setCfg => 1
  | .saveCfg => 1
  | .cfgDefault => 1
  | .setFreq => 1
  | .getQueueDepth => 1
  | .readTxpwr => 1
  | .setTxpwr => 1
  | .invalidCmd _ => 1
  | .syncHi _ => 1
  | .syncLo _ => 1
  | .len _ => 1
  | .payload _ => 1
  | .chkhi _ => 1
  | .chklo _ => 1
  | .reply _ q => 1 + q.length
  | .errreply _ => 2
  | .rxreply q => 1 + q.length
  | .fendPad => 1
  | .fendEnd => 1
  | .kdrop _ => 1
  | .tfend => 1
  | .tfesc => 1
  | .badTransposed _ => 1
  | .fesc => 1
  | .kdata _ => 1
  | .kissCmdData => 1
  | .kencOpen => 0
  | .kescFend => 1
  | .kescFesc => 1
  | .kescLiteral _ => 1
  | .kencClose => 0
  | .f _ _ => 3

/-- Under every configuration the encoder puts the instruction on its agent's stream, in as many bytes as its row has. -/
def EncodedInPlace.Statement (i : Instr) : Prop :=
  ∀ cfg : Config, turnOf (encode cfg i) = agent i ∧ (encode cfg i).bytes.length = size i

namespace EncodedInPlace

theorem nop : Statement .nop := fun _ => ⟨rfl, rfl⟩

theorem reset : Statement .reset := fun _ => ⟨rfl, rfl⟩

theorem txdata : Statement .txdata := fun _ => ⟨rfl, rfl⟩

theorem txAbort : Statement .txAbort := fun _ => ⟨rfl, rfl⟩

theorem txPsr : Statement .txPsr := fun _ => ⟨rfl, rfl⟩

theorem getCfg : Statement .getCfg := fun _ => ⟨rfl, rfl⟩

theorem setCfg : Statement .setCfg := fun _ => ⟨rfl, rfl⟩

theorem saveCfg : Statement .saveCfg := fun _ => ⟨rfl, rfl⟩

theorem cfgDefault : Statement .cfgDefault := fun _ => ⟨rfl, rfl⟩

theorem setFreq : Statement .setFreq := fun _ => ⟨rfl, rfl⟩

theorem getQueueDepth : Statement .getQueueDepth := fun _ => ⟨rfl, rfl⟩

theorem readTxpwr : Statement .readTxpwr := fun _ => ⟨rfl, rfl⟩

theorem setTxpwr : Statement .setTxpwr := fun _ => ⟨rfl, rfl⟩

theorem invalidCmd (b : Byte) : Statement (.invalidCmd b) := fun _ => ⟨rfl, rfl⟩

theorem syncHi (b : Byte) : Statement (.syncHi b) := fun _ => ⟨rfl, rfl⟩

theorem syncLo (b : Byte) : Statement (.syncLo b) := fun _ => ⟨rfl, rfl⟩

theorem len (b : Byte) : Statement (.len b) := fun _ => ⟨rfl, rfl⟩

theorem payload (b : Byte) : Statement (.payload b) := fun _ => ⟨rfl, rfl⟩

theorem chkhi (b : Byte) : Statement (.chkhi b) := fun _ => ⟨rfl, rfl⟩

theorem chklo (b : Byte) : Statement (.chklo b) := fun _ => ⟨rfl, rfl⟩

theorem reply (c : BitVec 7) (q : List Byte) : Statement (.reply c q) := fun _ => ⟨rfl, Nat.add_comm _ _⟩

theorem errreply (e : Byte) : Statement (.errreply e) := fun _ => ⟨rfl, rfl⟩

theorem rxreply (q : List Byte) : Statement (.rxreply q) := fun _ => ⟨rfl, Nat.add_comm _ _⟩

theorem fendPad : Statement .fendPad := fun _ => ⟨rfl, rfl⟩

theorem fendEnd : Statement .fendEnd := fun _ => ⟨rfl, rfl⟩

theorem kdrop (b : Byte) : Statement (.kdrop b) := fun _ => ⟨rfl, rfl⟩

theorem tfend : Statement .tfend := fun _ => ⟨rfl, rfl⟩

theorem tfesc : Statement .tfesc := fun _ => ⟨rfl, rfl⟩

theorem badTransposed (b : Byte) : Statement (.badTransposed b) := fun _ => ⟨rfl, rfl⟩

theorem fesc : Statement .fesc := fun _ => ⟨rfl, rfl⟩

theorem kdata (b : Byte) : Statement (.kdata b) := fun _ => ⟨rfl, rfl⟩

theorem kissCmdData : Statement .kissCmdData := fun _ => ⟨rfl, rfl⟩

theorem kencOpen : Statement .kencOpen := fun _ => ⟨rfl, rfl⟩

theorem kescFend : Statement .kescFend := fun _ => ⟨rfl, rfl⟩

theorem kescFesc : Statement .kescFesc := fun _ => ⟨rfl, rfl⟩

theorem kescLiteral (b : Byte) : Statement (.kescLiteral b) := fun _ => ⟨rfl, rfl⟩

theorem kencClose : Statement .kencClose := fun _ => ⟨rfl, rfl⟩

theorem f (acc : Half) (c : Byte) : Statement (.f acc c) := fun _ => ⟨rfl, rfl⟩

end EncodedInPlace

end Sys2Proof.Laws
end

