-- ==== Sys2Proof/Laws/State.lean ====
section
/-! SUPPORT. One lemma per field per update of State, each true by unfolding once, so that no later proof unfolds a record
update. -/

namespace Sys2Proof.Machine

variable (s : State)

@[simp] theorem State.setEvent_cfg (e : Event) : (s.setEvent e).cfg = s.cfg := rfl
@[simp] theorem State.setEvent_p (e : Event) : (s.setEvent e).p = s.p := rfl
@[simp] theorem State.setEvent_k (e : Event) : (s.setEvent e).k = s.k := rfl
@[simp] theorem State.setEvent_env (e : Event) : (s.setEvent e).env = s.env := rfl
@[simp] theorem State.setEvent_cmdRx (e : Event) : (s.setEvent e).cmdRx = s.cmdRx := rfl
@[simp] theorem State.setEvent_kissRx (e : Event) : (s.setEvent e).kissRx = s.kissRx := rfl
@[simp] theorem State.setEvent_sched (e : Event) : (s.setEvent e).sched = s.sched := rfl
@[simp] theorem State.setEvent_calls (e : Event) : (s.setEvent e).calls = s.calls := rfl
@[simp] theorem State.setEvent_responses (e : Event) : (s.setEvent e).responses = s.responses := rfl
@[simp] theorem State.setEvent_draws (e : Event) : (s.setEvent e).draws = s.draws := rfl
@[simp] theorem State.setEvent_cmdTx (e : Event) : (s.setEvent e).cmdTx = s.cmdTx := rfl
@[simp] theorem State.setEvent_kissTx (e : Event) : (s.setEvent e).kissTx = s.kissTx := rfl
@[simp] theorem State.setEvent_event (e : Event) : (s.setEvent e).event = e := rfl
@[simp] theorem State.setEvent_dispatches (e : Event) : (s.setEvent e).dispatches = s.dispatches := rfl
@[simp] theorem State.setEvent_engineOut (e : Event) : (s.setEvent e).engineOut = s.engineOut := rfl

@[simp] theorem State.setP_cfg (q : Parser) : (s.setP q).cfg = s.cfg := rfl
@[simp] theorem State.setP_p (q : Parser) : (s.setP q).p = q := rfl
@[simp] theorem State.setP_k (q : Parser) : (s.setP q).k = s.k := rfl
@[simp] theorem State.setP_env (q : Parser) : (s.setP q).env = s.env := rfl
@[simp] theorem State.setP_cmdRx (q : Parser) : (s.setP q).cmdRx = s.cmdRx := rfl
@[simp] theorem State.setP_kissRx (q : Parser) : (s.setP q).kissRx = s.kissRx := rfl
@[simp] theorem State.setP_sched (q : Parser) : (s.setP q).sched = s.sched := rfl
@[simp] theorem State.setP_calls (q : Parser) : (s.setP q).calls = s.calls := rfl
@[simp] theorem State.setP_responses (q : Parser) : (s.setP q).responses = s.responses := rfl
@[simp] theorem State.setP_draws (q : Parser) : (s.setP q).draws = s.draws := rfl
@[simp] theorem State.setP_cmdTx (q : Parser) : (s.setP q).cmdTx = s.cmdTx := rfl
@[simp] theorem State.setP_kissTx (q : Parser) : (s.setP q).kissTx = s.kissTx := rfl
@[simp] theorem State.setP_event (q : Parser) : (s.setP q).event = s.event := rfl
@[simp] theorem State.setP_dispatches (q : Parser) : (s.setP q).dispatches = s.dispatches := rfl
@[simp] theorem State.setP_engineOut (q : Parser) : (s.setP q).engineOut = s.engineOut := rfl

@[simp] theorem State.setK_cfg (q : Kiss) : (s.setK q).cfg = s.cfg := rfl
@[simp] theorem State.setK_p (q : Kiss) : (s.setK q).p = s.p := rfl
@[simp] theorem State.setK_k (q : Kiss) : (s.setK q).k = q := rfl
@[simp] theorem State.setK_env (q : Kiss) : (s.setK q).env = s.env := rfl
@[simp] theorem State.setK_cmdRx (q : Kiss) : (s.setK q).cmdRx = s.cmdRx := rfl
@[simp] theorem State.setK_kissRx (q : Kiss) : (s.setK q).kissRx = s.kissRx := rfl
@[simp] theorem State.setK_sched (q : Kiss) : (s.setK q).sched = s.sched := rfl
@[simp] theorem State.setK_calls (q : Kiss) : (s.setK q).calls = s.calls := rfl
@[simp] theorem State.setK_responses (q : Kiss) : (s.setK q).responses = s.responses := rfl
@[simp] theorem State.setK_draws (q : Kiss) : (s.setK q).draws = s.draws := rfl
@[simp] theorem State.setK_cmdTx (q : Kiss) : (s.setK q).cmdTx = s.cmdTx := rfl
@[simp] theorem State.setK_kissTx (q : Kiss) : (s.setK q).kissTx = s.kissTx := rfl
@[simp] theorem State.setK_event (q : Kiss) : (s.setK q).event = s.event := rfl
@[simp] theorem State.setK_dispatches (q : Kiss) : (s.setK q).dispatches = s.dispatches := rfl
@[simp] theorem State.setK_engineOut (q : Kiss) : (s.setK q).engineOut = s.engineOut := rfl

@[simp] theorem State.setSt_cfg (st : ParserState) : (s.setSt st).cfg = s.cfg := rfl
@[simp] theorem State.setSt_p (st : ParserState) : (s.setSt st).p = { s.p with st := st } := rfl
@[simp] theorem State.setSt_k (st : ParserState) : (s.setSt st).k = s.k := rfl
@[simp] theorem State.setSt_env (st : ParserState) : (s.setSt st).env = s.env := rfl
@[simp] theorem State.setSt_cmdRx (st : ParserState) : (s.setSt st).cmdRx = s.cmdRx := rfl
@[simp] theorem State.setSt_kissRx (st : ParserState) : (s.setSt st).kissRx = s.kissRx := rfl
@[simp] theorem State.setSt_sched (st : ParserState) : (s.setSt st).sched = s.sched := rfl
@[simp] theorem State.setSt_calls (st : ParserState) : (s.setSt st).calls = s.calls := rfl
@[simp] theorem State.setSt_responses (st : ParserState) : (s.setSt st).responses = s.responses := rfl
@[simp] theorem State.setSt_draws (st : ParserState) : (s.setSt st).draws = s.draws := rfl
@[simp] theorem State.setSt_cmdTx (st : ParserState) : (s.setSt st).cmdTx = s.cmdTx := rfl
@[simp] theorem State.setSt_kissTx (st : ParserState) : (s.setSt st).kissTx = s.kissTx := rfl
@[simp] theorem State.setSt_event (st : ParserState) : (s.setSt st).event = s.event := rfl
@[simp] theorem State.setSt_dispatches (st : ParserState) : (s.setSt st).dispatches = s.dispatches := rfl
@[simp] theorem State.setSt_engineOut (st : ParserState) : (s.setSt st).engineOut = s.engineOut := rfl

@[simp] theorem State.setEnv_cfg (e : Env) : (s.setEnv e).cfg = s.cfg := rfl
@[simp] theorem State.setEnv_p (e : Env) : (s.setEnv e).p = s.p := rfl
@[simp] theorem State.setEnv_k (e : Env) : (s.setEnv e).k = s.k := rfl
@[simp] theorem State.setEnv_env (e : Env) : (s.setEnv e).env = e := rfl
@[simp] theorem State.setEnv_cmdRx (e : Env) : (s.setEnv e).cmdRx = s.cmdRx := rfl
@[simp] theorem State.setEnv_kissRx (e : Env) : (s.setEnv e).kissRx = s.kissRx := rfl
@[simp] theorem State.setEnv_sched (e : Env) : (s.setEnv e).sched = s.sched := rfl
@[simp] theorem State.setEnv_calls (e : Env) : (s.setEnv e).calls = s.calls := rfl
@[simp] theorem State.setEnv_responses (e : Env) : (s.setEnv e).responses = s.responses := rfl
@[simp] theorem State.setEnv_draws (e : Env) : (s.setEnv e).draws = s.draws := rfl
@[simp] theorem State.setEnv_cmdTx (e : Env) : (s.setEnv e).cmdTx = s.cmdTx := rfl
@[simp] theorem State.setEnv_kissTx (e : Env) : (s.setEnv e).kissTx = s.kissTx := rfl
@[simp] theorem State.setEnv_event (e : Env) : (s.setEnv e).event = s.event := rfl
@[simp] theorem State.setEnv_dispatches (e : Env) : (s.setEnv e).dispatches = s.dispatches := rfl
@[simp] theorem State.setEnv_engineOut (e : Env) : (s.setEnv e).engineOut = s.engineOut := rfl

@[simp] theorem State.emitCmd_cfg (bs : List Byte) : (s.emitCmd bs).cfg = s.cfg := rfl
@[simp] theorem State.emitCmd_p (bs : List Byte) : (s.emitCmd bs).p = s.p := rfl
@[simp] theorem State.emitCmd_k (bs : List Byte) : (s.emitCmd bs).k = s.k := rfl
@[simp] theorem State.emitCmd_env (bs : List Byte) : (s.emitCmd bs).env = s.env := rfl
@[simp] theorem State.emitCmd_cmdRx (bs : List Byte) : (s.emitCmd bs).cmdRx = s.cmdRx := rfl
@[simp] theorem State.emitCmd_kissRx (bs : List Byte) : (s.emitCmd bs).kissRx = s.kissRx := rfl
@[simp] theorem State.emitCmd_sched (bs : List Byte) : (s.emitCmd bs).sched = s.sched := rfl
@[simp] theorem State.emitCmd_calls (bs : List Byte) : (s.emitCmd bs).calls = s.calls := rfl
@[simp] theorem State.emitCmd_responses (bs : List Byte) : (s.emitCmd bs).responses = s.responses := rfl
@[simp] theorem State.emitCmd_draws (bs : List Byte) : (s.emitCmd bs).draws = s.draws := rfl
@[simp] theorem State.emitCmd_cmdTx (bs : List Byte) : (s.emitCmd bs).cmdTx = s.cmdTx ++ bs := rfl
@[simp] theorem State.emitCmd_kissTx (bs : List Byte) : (s.emitCmd bs).kissTx = s.kissTx := rfl
@[simp] theorem State.emitCmd_event (bs : List Byte) : (s.emitCmd bs).event = s.event := rfl
@[simp] theorem State.emitCmd_dispatches (bs : List Byte) : (s.emitCmd bs).dispatches = s.dispatches := rfl
@[simp] theorem State.emitCmd_engineOut (bs : List Byte) : (s.emitCmd bs).engineOut = s.engineOut := rfl

@[simp] theorem State.emitKiss_cfg (bs : List Byte) : (s.emitKiss bs).cfg = s.cfg := rfl
@[simp] theorem State.emitKiss_p (bs : List Byte) : (s.emitKiss bs).p = s.p := rfl
@[simp] theorem State.emitKiss_k (bs : List Byte) : (s.emitKiss bs).k = s.k := rfl
@[simp] theorem State.emitKiss_env (bs : List Byte) : (s.emitKiss bs).env = s.env := rfl
@[simp] theorem State.emitKiss_cmdRx (bs : List Byte) : (s.emitKiss bs).cmdRx = s.cmdRx := rfl
@[simp] theorem State.emitKiss_kissRx (bs : List Byte) : (s.emitKiss bs).kissRx = s.kissRx := rfl
@[simp] theorem State.emitKiss_sched (bs : List Byte) : (s.emitKiss bs).sched = s.sched := rfl
@[simp] theorem State.emitKiss_calls (bs : List Byte) : (s.emitKiss bs).calls = s.calls := rfl
@[simp] theorem State.emitKiss_responses (bs : List Byte) : (s.emitKiss bs).responses = s.responses := rfl
@[simp] theorem State.emitKiss_draws (bs : List Byte) : (s.emitKiss bs).draws = s.draws := rfl
@[simp] theorem State.emitKiss_cmdTx (bs : List Byte) : (s.emitKiss bs).cmdTx = s.cmdTx := rfl
@[simp] theorem State.emitKiss_kissTx (bs : List Byte) : (s.emitKiss bs).kissTx = s.kissTx ++ bs := rfl
@[simp] theorem State.emitKiss_event (bs : List Byte) : (s.emitKiss bs).event = s.event := rfl
@[simp] theorem State.emitKiss_dispatches (bs : List Byte) : (s.emitKiss bs).dispatches = s.dispatches := rfl
@[simp] theorem State.emitKiss_engineOut (bs : List Byte) : (s.emitKiss bs).engineOut = s.engineOut := rfl

@[simp] theorem State.noteDispatch_cfg (c n : Byte) (q : List Byte) : (s.noteDispatch c n q).cfg = s.cfg := rfl
@[simp] theorem State.noteDispatch_p (c n : Byte) (q : List Byte) : (s.noteDispatch c n q).p = s.p := rfl
@[simp] theorem State.noteDispatch_k (c n : Byte) (q : List Byte) : (s.noteDispatch c n q).k = s.k := rfl
@[simp] theorem State.noteDispatch_env (c n : Byte) (q : List Byte) : (s.noteDispatch c n q).env = s.env := rfl
@[simp] theorem State.noteDispatch_cmdRx (c n : Byte) (q : List Byte) : (s.noteDispatch c n q).cmdRx = s.cmdRx := rfl
@[simp] theorem State.noteDispatch_kissRx (c n : Byte) (q : List Byte) : (s.noteDispatch c n q).kissRx = s.kissRx := rfl
@[simp] theorem State.noteDispatch_sched (c n : Byte) (q : List Byte) : (s.noteDispatch c n q).sched = s.sched := rfl
@[simp] theorem State.noteDispatch_calls (c n : Byte) (q : List Byte) : (s.noteDispatch c n q).calls = s.calls := rfl
@[simp] theorem State.noteDispatch_responses (c n : Byte) (q : List Byte) : (s.noteDispatch c n q).responses = s.responses := rfl
@[simp] theorem State.noteDispatch_draws (c n : Byte) (q : List Byte) : (s.noteDispatch c n q).draws = s.draws := rfl
@[simp] theorem State.noteDispatch_cmdTx (c n : Byte) (q : List Byte) : (s.noteDispatch c n q).cmdTx = s.cmdTx := rfl
@[simp] theorem State.noteDispatch_kissTx (c n : Byte) (q : List Byte) : (s.noteDispatch c n q).kissTx = s.kissTx := rfl
@[simp] theorem State.noteDispatch_event (c n : Byte) (q : List Byte) : (s.noteDispatch c n q).event = .dispatch c n q := rfl
@[simp] theorem State.noteDispatch_dispatches (c n : Byte) (q : List Byte) : (s.noteDispatch c n q).dispatches = s.dispatches ++ [⟨c, n, q⟩] := rfl
@[simp] theorem State.noteDispatch_engineOut (c n : Byte) (q : List Byte) : (s.noteDispatch c n q).engineOut = s.engineOut := rfl

@[simp] theorem State.preset_cfg : s.preset.cfg = s.cfg := rfl
@[simp] theorem State.preset_p : s.preset.p = s.p.preset := rfl
@[simp] theorem State.preset_k : s.preset.k = s.k := rfl
@[simp] theorem State.preset_env : s.preset.env = s.env := rfl
@[simp] theorem State.preset_cmdRx : s.preset.cmdRx = s.cmdRx := rfl
@[simp] theorem State.preset_kissRx : s.preset.kissRx = s.kissRx := rfl
@[simp] theorem State.preset_sched : s.preset.sched = s.sched := rfl
@[simp] theorem State.preset_calls : s.preset.calls = s.calls := rfl
@[simp] theorem State.preset_responses : s.preset.responses = s.responses := rfl
@[simp] theorem State.preset_draws : s.preset.draws = s.draws := rfl
@[simp] theorem State.preset_cmdTx : s.preset.cmdTx = s.cmdTx := rfl
@[simp] theorem State.preset_kissTx : s.preset.kissTx = s.kissTx := rfl
@[simp] theorem State.preset_event : s.preset.event = s.event := rfl
@[simp] theorem State.preset_dispatches : s.preset.dispatches = s.dispatches := rfl
@[simp] theorem State.preset_engineOut : s.preset.engineOut = s.engineOut := rfl

@[simp] theorem State.raise_cfg (x : ErrorKind) : (s.raise x).cfg = s.cfg := rfl
@[simp] theorem State.raise_p (x : ErrorKind) : (s.raise x).p = s.p.preset := rfl
@[simp] theorem State.raise_k (x : ErrorKind) : (s.raise x).k = s.k := rfl
@[simp] theorem State.raise_env (x : ErrorKind) : (s.raise x).env = s.env := rfl
@[simp] theorem State.raise_cmdRx (x : ErrorKind) : (s.raise x).cmdRx = s.cmdRx := rfl
@[simp] theorem State.raise_kissRx (x : ErrorKind) : (s.raise x).kissRx = s.kissRx := rfl
@[simp] theorem State.raise_sched (x : ErrorKind) : (s.raise x).sched = s.sched := rfl
@[simp] theorem State.raise_calls (x : ErrorKind) : (s.raise x).calls = s.calls := rfl
@[simp] theorem State.raise_responses (x : ErrorKind) : (s.raise x).responses = s.responses := rfl
@[simp] theorem State.raise_draws (x : ErrorKind) : (s.raise x).draws = s.draws := rfl
@[simp] theorem State.raise_cmdTx (x : ErrorKind) : (s.raise x).cmdTx = s.cmdTx ++ errReplyFrame s.cfg s.env.status (s.cfg.errCode x) := rfl
@[simp] theorem State.raise_kissTx (x : ErrorKind) : (s.raise x).kissTx = s.kissTx := rfl
@[simp] theorem State.raise_event (x : ErrorKind) : (s.raise x).event = .error (s.cfg.errCode x) := rfl
@[simp] theorem State.raise_dispatches (x : ErrorKind) : (s.raise x).dispatches = s.dispatches := rfl
@[simp] theorem State.raise_engineOut (x : ErrorKind) : (s.raise x).engineOut = s.engineOut := rfl

@[simp] theorem State.kissError_cfg (q : Kiss) (r : KissError) : (s.kissError q r).cfg = s.cfg := rfl
@[simp] theorem State.kissError_p (q : Kiss) (r : KissError) : (s.kissError q r).p = s.p := rfl
@[simp] theorem State.kissError_k (q : Kiss) (r : KissError) : (s.kissError q r).k = q := rfl
@[simp] theorem State.kissError_env (q : Kiss) (r : KissError) : (s.kissError q r).env = s.env := rfl
@[simp] theorem State.kissError_cmdRx (q : Kiss) (r : KissError) : (s.kissError q r).cmdRx = s.cmdRx := rfl
@[simp] theorem State.kissError_kissRx (q : Kiss) (r : KissError) : (s.kissError q r).kissRx = s.kissRx := rfl
@[simp] theorem State.kissError_sched (q : Kiss) (r : KissError) : (s.kissError q r).sched = s.sched := rfl
@[simp] theorem State.kissError_calls (q : Kiss) (r : KissError) : (s.kissError q r).calls = s.calls := rfl
@[simp] theorem State.kissError_responses (q : Kiss) (r : KissError) : (s.kissError q r).responses = s.responses := rfl
@[simp] theorem State.kissError_draws (q : Kiss) (r : KissError) : (s.kissError q r).draws = s.draws := rfl
@[simp] theorem State.kissError_cmdTx (q : Kiss) (r : KissError) : (s.kissError q r).cmdTx = s.cmdTx := rfl
@[simp] theorem State.kissError_kissTx (q : Kiss) (r : KissError) : (s.kissError q r).kissTx = s.kissTx := rfl
@[simp] theorem State.kissError_event (q : Kiss) (r : KissError) : (s.kissError q r).event = .kerr r := rfl
@[simp] theorem State.kissError_dispatches (q : Kiss) (r : KissError) : (s.kissError q r).dispatches = s.dispatches := rfl
@[simp] theorem State.kissError_engineOut (q : Kiss) (r : KissError) : (s.kissError q r).engineOut = s.engineOut := rfl

@[simp] theorem State.acceptCmd_cfg (c : Command) : (s.acceptCmd c).cfg = s.cfg := rfl
@[simp] theorem State.acceptCmd_p (c : Command) : (s.acceptCmd c).p = { s.p with cmd := s.cfg.id c, computed := fStep s.cfg s.cfg.seed (s.cfg.id c), st := .len } := rfl
@[simp] theorem State.acceptCmd_k (c : Command) : (s.acceptCmd c).k = s.k := rfl
@[simp] theorem State.acceptCmd_env (c : Command) : (s.acceptCmd c).env = s.env := rfl
@[simp] theorem State.acceptCmd_cmdRx (c : Command) : (s.acceptCmd c).cmdRx = s.cmdRx := rfl
@[simp] theorem State.acceptCmd_kissRx (c : Command) : (s.acceptCmd c).kissRx = s.kissRx := rfl
@[simp] theorem State.acceptCmd_sched (c : Command) : (s.acceptCmd c).sched = s.sched := rfl
@[simp] theorem State.acceptCmd_calls (c : Command) : (s.acceptCmd c).calls = s.calls := rfl
@[simp] theorem State.acceptCmd_responses (c : Command) : (s.acceptCmd c).responses = s.responses := rfl
@[simp] theorem State.acceptCmd_draws (c : Command) : (s.acceptCmd c).draws = s.draws := rfl
@[simp] theorem State.acceptCmd_cmdTx (c : Command) : (s.acceptCmd c).cmdTx = s.cmdTx := rfl
@[simp] theorem State.acceptCmd_kissTx (c : Command) : (s.acceptCmd c).kissTx = s.kissTx := rfl
@[simp] theorem State.acceptCmd_event (c : Command) : (s.acceptCmd c).event = .none := rfl
@[simp] theorem State.acceptCmd_dispatches (c : Command) : (s.acceptCmd c).dispatches = s.dispatches := rfl
@[simp] theorem State.acceptCmd_engineOut (c : Command) : (s.acceptCmd c).engineOut = s.engineOut := rfl

@[simp] theorem State.deliver_cfg (c : Command) (h : Handled) : (s.deliver c h).cfg = s.cfg := rfl
@[simp] theorem State.deliver_p (c : Command) (h : Handled) : (s.deliver c h).p = s.p := rfl
@[simp] theorem State.deliver_k (c : Command) (h : Handled) : (s.deliver c h).k = s.k := rfl
@[simp] theorem State.deliver_env (c : Command) (h : Handled) : (s.deliver c h).env = h.env := rfl
@[simp] theorem State.deliver_cmdRx (c : Command) (h : Handled) : (s.deliver c h).cmdRx = s.cmdRx := rfl
@[simp] theorem State.deliver_kissRx (c : Command) (h : Handled) : (s.deliver c h).kissRx = s.kissRx := rfl
@[simp] theorem State.deliver_sched (c : Command) (h : Handled) : (s.deliver c h).sched = s.sched := rfl
@[simp] theorem State.deliver_calls (c : Command) (h : Handled) : (s.deliver c h).calls = s.calls := rfl
@[simp] theorem State.deliver_responses (c : Command) (h : Handled) : (s.deliver c h).responses = s.responses := rfl
@[simp] theorem State.deliver_draws (c : Command) (h : Handled) : (s.deliver c h).draws = s.draws := rfl
@[simp] theorem State.deliver_cmdTx (c : Command) (h : Handled) : (s.deliver c h).cmdTx = s.cmdTx ++ replyBytes s.cfg c h := rfl
@[simp] theorem State.deliver_kissTx (c : Command) (h : Handled) : (s.deliver c h).kissTx = s.kissTx ++ h.tx.flatten := rfl
@[simp] theorem State.deliver_event (c : Command) (h : Handled) : (s.deliver c h).event = s.event := rfl
@[simp] theorem State.deliver_dispatches (c : Command) (h : Handled) : (s.deliver c h).dispatches = s.dispatches := rfl
@[simp] theorem State.deliver_engineOut (c : Command) (h : Handled) : (s.deliver c h).engineOut = s.engineOut := rfl

@[simp] theorem State.tookResponse_cfg : s.tookResponse.cfg = s.cfg := by
  unfold State.tookResponse; cases s.responses <;> rfl
@[simp] theorem State.tookResponse_p : s.tookResponse.p = s.p := by
  unfold State.tookResponse; cases s.responses <;> rfl
@[simp] theorem State.tookResponse_k : s.tookResponse.k = s.k := by
  unfold State.tookResponse; cases s.responses <;> rfl
@[simp] theorem State.tookResponse_env : s.tookResponse.env = s.env := by
  unfold State.tookResponse; cases s.responses <;> rfl
@[simp] theorem State.tookResponse_cmdRx : s.tookResponse.cmdRx = s.cmdRx := by
  unfold State.tookResponse; cases s.responses <;> rfl
@[simp] theorem State.tookResponse_kissRx : s.tookResponse.kissRx = s.kissRx := by
  unfold State.tookResponse; cases s.responses <;> rfl
@[simp] theorem State.tookResponse_sched : s.tookResponse.sched = s.sched := by
  unfold State.tookResponse; cases s.responses <;> rfl
@[simp] theorem State.tookResponse_calls : s.tookResponse.calls = s.calls := by
  unfold State.tookResponse; cases s.responses <;> rfl
@[simp] theorem State.tookResponse_responses : s.tookResponse.responses = s.responses.tail := by
  unfold State.tookResponse; cases h : s.responses <;> simp
@[simp] theorem State.tookResponse_draws :
    s.tookResponse.draws = if s.responses = [] then s.draws + 1 else s.draws := by
  unfold State.tookResponse; cases h : s.responses <;> simp
@[simp] theorem State.tookResponse_cmdTx : s.tookResponse.cmdTx = s.cmdTx := by
  unfold State.tookResponse; cases s.responses <;> rfl
@[simp] theorem State.tookResponse_kissTx : s.tookResponse.kissTx = s.kissTx := by
  unfold State.tookResponse; cases s.responses <;> rfl
@[simp] theorem State.tookResponse_event : s.tookResponse.event = s.event := by
  unfold State.tookResponse; cases s.responses <;> rfl
@[simp] theorem State.tookResponse_dispatches : s.tookResponse.dispatches = s.dispatches := by
  unfold State.tookResponse; cases s.responses <;> rfl
@[simp] theorem State.tookResponse_engineOut : s.tookResponse.engineOut = s.engineOut := by
  unfold State.tookResponse; cases s.responses <;> rfl

@[simp] theorem State.handle_cfg (c : Command) (q : List Byte) :
    (s.handle c q).cfg = s.cfg := by
  simp [State.handle]
@[simp] theorem State.handle_p (c : Command) (q : List Byte) :
    (s.handle c q).p = s.p := by
  simp [State.handle]
@[simp] theorem State.handle_k (c : Command) (q : List Byte) :
    (s.handle c q).k = s.k := by
  simp [State.handle]
@[simp] theorem State.handle_env (c : Command) (q : List Byte) :
    (s.handle c q).env = (handler s.cfg c q s.env s.response).env := by
  simp [State.handle]
@[simp] theorem State.handle_cmdRx (c : Command) (q : List Byte) :
    (s.handle c q).cmdRx = s.cmdRx := by
  simp [State.handle]
@[simp] theorem State.handle_kissRx (c : Command) (q : List Byte) :
    (s.handle c q).kissRx = s.kissRx := by
  simp [State.handle]
@[simp] theorem State.handle_sched (c : Command) (q : List Byte) :
    (s.handle c q).sched = s.sched := by
  simp [State.handle]
@[simp] theorem State.handle_calls (c : Command) (q : List Byte) :
    (s.handle c q).calls = s.calls := by
  simp [State.handle]
@[simp] theorem State.handle_responses (c : Command) (q : List Byte) :
    (s.handle c q).responses = s.responses.tail := by
  simp [State.handle]
@[simp] theorem State.handle_draws (c : Command) (q : List Byte) :
    (s.handle c q).draws = if s.responses = [] then s.draws + 1 else s.draws := by
  simp [State.handle]
@[simp] theorem State.handle_cmdTx (c : Command) (q : List Byte) :
    (s.handle c q).cmdTx = s.cmdTx ++ replyBytes s.cfg c (handler s.cfg c q s.env s.response) := by
  simp [State.handle]
@[simp] theorem State.handle_kissTx (c : Command) (q : List Byte) :
    (s.handle c q).kissTx = s.kissTx ++ (handler s.cfg c q s.env s.response).tx.flatten := by
  simp [State.handle]
@[simp] theorem State.handle_event (c : Command) (q : List Byte) :
    (s.handle c q).event = s.event := by
  simp [State.handle]
@[simp] theorem State.handle_dispatches (c : Command) (q : List Byte) :
    (s.handle c q).dispatches = s.dispatches := by
  simp [State.handle]
@[simp] theorem State.handle_engineOut (c : Command) (q : List Byte) :
    (s.handle c q).engineOut = s.engineOut := by
  simp [State.handle]

@[simp] theorem Parser.preset_st (p : Parser) : p.preset.st = .sync0 := rfl
@[simp] theorem Parser.preset_cmd (p : Parser) : p.preset.cmd = 0 := rfl
@[simp] theorem Parser.preset_len (p : Parser) : p.preset.len = 0 := rfl
@[simp] theorem Parser.preset_idx (p : Parser) : p.preset.idx = 0 := rfl
@[simp] theorem Parser.preset_computed (p : Parser) : p.preset.computed = 0 := rfl
@[simp] theorem Parser.preset_rx (p : Parser) : p.preset.rx = 0 := rfl
@[simp] theorem Parser.preset_buf (p : Parser) : p.preset.buf = p.buf := rfl

@[simp] theorem Kiss.setEsc_buf (k : Kiss) (v : Bool) : (k.setEsc v).buf = k.buf := rfl
@[simp] theorem Kiss.setEsc_len (k : Kiss) (v : Bool) : (k.setEsc v).len = k.len := rfl
@[simp] theorem Kiss.setEsc_esc (k : Kiss) (v : Bool) : (k.setEsc v).esc = v := rfl
@[simp] theorem Kiss.setEsc_drop (k : Kiss) (v : Bool) : (k.setEsc v).drop = k.drop := rfl
@[simp] theorem Kiss.clearFlags_buf (k : Kiss) : k.clearFlags.buf = k.buf := rfl
@[simp] theorem Kiss.clearFlags_len (k : Kiss) : k.clearFlags.len = k.len := rfl
@[simp] theorem Kiss.clearFlags_esc (k : Kiss) : k.clearFlags.esc = false := rfl
@[simp] theorem Kiss.clearFlags_drop (k : Kiss) : k.clearFlags.drop = false := rfl
@[simp] theorem Kiss.clear_buf (k : Kiss) : k.clear.buf = k.buf := rfl
@[simp] theorem Kiss.clear_len (k : Kiss) : k.clear.len = 0 := rfl
@[simp] theorem Kiss.clear_esc (k : Kiss) : k.clear.esc = false := rfl
@[simp] theorem Kiss.clear_drop (k : Kiss) : k.clear.drop = false := rfl
@[simp] theorem Kiss.fail_buf (k : Kiss) : k.fail.buf = k.buf := rfl
@[simp] theorem Kiss.fail_len (k : Kiss) : k.fail.len = 0 := rfl
@[simp] theorem Kiss.fail_esc (k : Kiss) : k.fail.esc = k.esc := rfl
@[simp] theorem Kiss.fail_drop (k : Kiss) : k.fail.drop = true := rfl

end Sys2Proof.Machine
end

