-- ==== Sys2Proof/Laws/Step.lean ====
section
/-! SUPPORT. What each shared operation and the fetch can do, said once. -/

namespace Sys2Proof.Machine

variable {s t : State}

/-! ## Shared operations -/

/-- The width of `K.len` holds `KISS_CAP` (R19). -/
theorem kissCap_lt (cfg : Config) : cfg.kissCap < 2 ^ cfg.kissLenBits := Nat.lt_log2_self

/-- No smaller width does (R19). -/
theorem kissLenBits_least {cfg : Config} (h : cfg.kissCap ≠ 0) {w : Nat} (hw : cfg.kissCap < 2 ^ w) :
    cfg.kissLenBits ≤ w := (Nat.log2_lt h).mpr hw

/-- Below `KISS_CAP` the counter counts (R19, R117). -/
theorem Kiss.lenSucc_room {cfg : Config} {k : Kiss} (h : k.len < cfg.kissCap) : k.lenSucc cfg = k.len + 1 :=
  Nat.mod_eq_of_lt (Nat.lt_of_le_of_lt h (kissCap_lt cfg))

/-- `APPEND` completes exactly on a buffer within its capacity (R117). -/
theorem State.append_next {k : Kiss} {v : Byte} (h : s.append k v = .next t) :
    (k.len = s.cfg.kissCap ∧ t = s.kissError k.fail .overflow) ∨
    (k.len < s.cfg.kissCap ∧
      t = (s.setK { k with buf := Memory.write k.buf k.len v, len := k.len + 1 }).setEvent .none) := by
  unfold State.append at h
  split_ifs at h with h1 h2
  · exact .inl ⟨h1, (Host.Outcome.next.inj h).symm⟩
  · rw [Kiss.lenSucc_room h2] at h
    exact .inr ⟨h2, (Host.Outcome.next.inj h).symm⟩

theorem State.append_full {k : Kiss} {v : Byte} (h : k.len = s.cfg.kissCap) :
    s.append k v = .next (s.kissError k.fail .overflow) := by
  simp [State.append, h]

theorem State.append_room {k : Kiss} {v : Byte} (h : k.len < s.cfg.kissCap) :
    s.append k v =
      .next ((s.setK { k with buf := Memory.write k.buf k.len v, len := k.len + 1 }).setEvent .none) := by
  simp [State.append, h, Nat.ne_of_lt h, Kiss.lenSucc_room h]

theorem State.append_beyond {k : Kiss} {v : Byte} (h : s.cfg.kissCap < k.len) :
    s.append k v = .fault .kbufIndex := by
  simp [State.append, Nat.ne_of_gt h, Nat.not_lt.mpr h.le]

theorem State.sendReply_next {c : Byte} {q : List Byte} (h : s.sendReply c q = .next t) :
    q.length ≤ 255 ∧ t = s.emitCmd (replyFrame s.cfg s.env.status c q) := by
  unfold State.sendReply at h
  split_ifs at h with hq
  exact ⟨hq, (Host.Outcome.next.inj h).symm⟩

theorem State.sendReply_short {c : Byte} {q : List Byte} (h : q.length ≤ 255) :
    s.sendReply c q = .next (s.emitCmd (replyFrame s.cfg s.env.status c q)) := by
  simp [State.sendReply, h]

theorem State.sendReply_long {c : Byte} {q : List Byte} (h : 255 < q.length) :
    s.sendReply c q = .refused .replyTooLong := by
  simp [State.sendReply, Nat.not_le.mpr h]

/-- A dispatch completes on a listed id and a length within the buffer (R137, R173). -/
theorem State.dispatch_eq {c : Command} (hc : s.cfg.command? s.p.cmd = some c)
    (hl : s.p.len.toNat ≤ s.cfg.maxPayload) :
    s.dispatch = .next ((s.preset.noteDispatch s.p.cmd s.p.len (s.p.buf.pbufBytes s.p.len.toNat)).handle c
      (s.p.buf.pbufBytes s.p.len.toNat)) := by
  simp [State.dispatch, hc, hl]

theorem State.dispatch_next (h : s.dispatch = .next t) :
    ∃ c, s.cfg.command? s.p.cmd = some c ∧ s.p.len.toNat ≤ s.cfg.maxPayload ∧
      t = (s.preset.noteDispatch s.p.cmd s.p.len (s.p.buf.pbufBytes s.p.len.toNat)).handle c
        (s.p.buf.pbufBytes s.p.len.toNat) := by
  unfold State.dispatch at h
  split at h
  · cases h
  · rename_i c hc
    split_ifs at h with hl
    exact ⟨c, hc, hl, (Host.Outcome.next.inj h).symm⟩

@[simp] theorem State.response_setEvent (e : Event) : (s.setEvent e).response = s.response := rfl

@[simp] theorem State.response_preset : s.preset.response = s.response := rfl

@[simp] theorem State.response_noteDispatch (c n : Byte) (q : List Byte) :
    (s.noteDispatch c n q).response = s.response := rfl

theorem State.sendReply_ne_fault {c : Byte} {q : List Byte} {r : Fault} : s.sendReply c q ≠ .fault r := by
  unfold State.sendReply
  split_ifs <;> simp

/-! ## What a handler can answer -/

/-- A handler's `TX` items are KISS frames (R40, R173). -/
theorem handler_tx (cfg : Config) (c : Command) (q : List Byte) (e : Env) (r : Response) :
    ∃ ps : List (List Byte), (handler cfg c q e r).tx = ps.map (kenc cfg) := by
  have frames : ∀ e', ∃ ps : List (List Byte), (failed cfg r e').tx = ps.map (kenc cfg) := fun _ => ⟨r.tx, rfl⟩
  have opened : ∃ ps : List (List Byte), (openHandled cfg r).tx = ps.map (kenc cfg) := by
    unfold openHandled; cases r.failure <;> exact ⟨r.tx, rfl⟩
  have replied : ∀ e' p, ∃ ps : List (List Byte), (answered cfg e' r p).tx = ps.map (kenc cfg) := by
    intro e' p
    unfold answered
    cases r.failure with
    | none => exact opened
    | some k => exact frames k
  cases c with
  | nop => exact ⟨[], rfl⟩
  | reset => exact ⟨r.tx, rfl⟩
  | txPsr =>
    obtain ⟨ps, hps⟩ : ∃ ps, txFrames cfg r ++ r.psr.map (kenc cfg) = ps.map (kenc cfg) :=
      ⟨r.tx ++ r.psr, by simp [txFrames]⟩
    exact ⟨ps, hps⟩
  | txdata =>
    simp only [handler, handleTxdata]
    cases r.failure with
    | some k => exact frames k
    | none =>
      cases r.transmit
      · exact ⟨r.tx, by simp [txFrames]⟩
      · exact ⟨r.tx ++ [q], by simp [txFrames]⟩
  | setFreq =>
    simp only [handler, handleSetFreq]
    cases r.failure with
    | some k => exact frames k
    | none => exact opened
  | readTxpwr => exact replied _ _
  | setTxpwr => exact replied _ _
  | getQueueDepth => exact replied _ _
  | txAbort => exact opened
  | getCfg => exact opened
  | setCfg => exact opened
  | saveCfg => exact opened
  | cfgDefault => exact opened

/-! ## Fetch and step -/

theorem State.fetch_idle (h : s.sched = []) : s.fetch = .quiet s := by
  simp [State.fetch, h]

theorem State.fetch_parser {b : Byte} {bs : List Byte} {ts : List Turn} (h : s.sched = .parser :: ts)
    (hb : s.cmdRx = b :: bs) : s.fetch = .instr (.cmdByte s.p.st b) { s with sched := ts, cmdRx := bs } := by
  simp [State.fetch, h, hb, State.cmdFetch]

theorem State.fetch_decoder {b : Byte} {bs : List Byte} {ts : List Turn} (h : s.sched = .decoder :: ts)
    (hb : s.kissRx = b :: bs) :
    s.fetch = .instr (.kissByte (decide (s.k.len = 0)) s.k.drop s.k.esc b) { s with sched := ts, kissRx := bs } := by
  simp [State.fetch, h, hb, State.kissFetch]

/-- The thirteen command bytes have one meaning each, all of one shape (R133). -/
theorem exec_command (c : Command) (s : State) : exec c.instr s = .next (s.acceptCmd c) := by cases c <;> rfl

/-- Between steps, a step is the next move. -/
theorem step_between (h : s.calls = []) :
    step s =
      match s.fetch with
      | .quiet t => .next t
      | .instr f t =>
        match decode s.cfg f with
        | .ok i => exec i t
        | .error r => .refused (.badCall r) := by
  cases hf : s.fetch with
  | quiet t => simp [step, h, hf]
  | instr f t => cases hd : decode s.cfg f <;> simp [step, h, hf, hd]

/-- Inside a step, a step does all that is still asked of the units. -/
theorem step_inside (h : s.calls ≠ []) : step s = runCalls s.calls { s with calls := [] } := by
  unfold step
  cases hc : s.calls with
  | nil => exact absurd hc h
  | cons c cs => rfl

/-- A parser turn runs the byte in its place. -/
theorem step_parser {b : Byte} {bs : List Byte} {ts : List Turn} (hc : s.calls = []) (h : s.sched = .parser :: ts)
    (hb : s.cmdRx = b :: bs) :
    step s = exec (decodeCmdByte s.cfg b s.p.st) { s with sched := ts, cmdRx := bs } := by
  simp only [step_between hc, State.fetch_parser h hb, decode]

/-- A decoder turn runs the byte in its place. -/
theorem step_decoder {b : Byte} {bs : List Byte} {ts : List Turn} (hc : s.calls = []) (h : s.sched = .decoder :: ts)
    (hb : s.kissRx = b :: bs) :
    step s = exec (decodeKissByte s.cfg (decide (s.k.len = 0)) s.k.drop s.k.esc b) { s with sched := ts, kissRx := bs } := by
  simp only [step_between hc, State.fetch_decoder h hb, decode]

@[simp] theorem runCalls_nil (s : State) : runCalls [] s = .next s := rfl

/-- One operation and then the others. -/
theorem runCalls_cons {c : Call} {cs : List Call} {i : Instr} (hi : decodeCall s.cfg c = .ok i) (h : exec i s = .next t) :
    runCalls (c :: cs) s = runCalls cs t := by
  simp only [runCalls, decode, hi, h]

/-- One operation alone is the instruction it decodes to. -/
theorem runCalls_single {c : Call} {i : Instr} (hi : decodeCall s.cfg c = .ok i) : runCalls [c] s = exec i s := by
  simp only [runCalls, decode, hi]
  cases exec i s <;> rfl

/-- Operations that go on have a first that goes on. -/
theorem runCalls_cons_next {c : Call} {cs : List Call} (h : runCalls (c :: cs) s = .next t) :
    ∃ i u, decodeCall s.cfg c = .ok i ∧ exec i s = .next u ∧ runCalls cs u = .next t := by
  simp only [runCalls, decode] at h
  cases hd : decodeCall s.cfg c with
  | error r => simp [hd] at h
  | ok i =>
    simp only [hd] at h
    cases hx : exec i s with
    | next u => simp only [hx] at h; exact ⟨i, u, rfl, hx, h⟩
    | fault r => simp [hx] at h
    | refused r => simp [hx] at h

/-- What every unit operation keeps, a sequence of them keeps. -/
theorem runCalls_keeps {I : State → Prop}
    (keep : ∀ (a b : State) (c : Call) (i : Instr), I a → decodeCall a.cfg c = .ok i → exec i a = .next b → I b)
    {cs : List Call} (hs : I s) (h : runCalls cs s = .next t) : I t := by
  induction cs generalizing s with
  | nil => cases h; exact hs
  | cons c cs ih =>
    obtain ⟨i, u, hi, hx, hr⟩ := runCalls_cons_next h
    exact ih (keep s u c i hs hi hx) hr

theorem turns_zero (t : Turn) (ts : List Turn) : turns 0 t ts = ts := rfl

theorem turns_succ (n : Nat) (t : Turn) (ts : List Turn) : turns (n + 1) t ts = t :: turns n t ts := by
  simp [turns, List.replicate_succ]

theorem turns_add (m n : Nat) (t : Turn) (ts : List Turn) : turns (m + n) t ts = turns m t (turns n t ts) := by
  induction m with
  | zero => rw [Nat.zero_add, turns_zero]
  | succ m ih => rw [Nat.succ_add, turns_succ, turns_succ, ih]

/-- Everything a step that goes on can have been: the end of a step in progress, a quiet move, a byte of `CMD_RX` through the
parser, or a byte of `KISS_RX` through the decoder. -/
theorem step_cases (h : step s = .next t) :
    (s.calls ≠ [] ∧ runCalls s.calls { s with calls := [] } = .next t) ∨
    (s.calls = [] ∧
      ((s.sched = [] ∧ t = s) ∨
       (∃ u ts, s.sched = u :: ts ∧
        ((u = .parser ∧ s.cmdRx = [] ∧ t = { s with sched := ts }) ∨
         (u = .decoder ∧ s.kissRx = [] ∧ t = { s with sched := ts }) ∨
         (∃ e, u = .outside e ∧ t = { s with sched := ts, env := e }) ∨
         (∃ b bs, u = .parser ∧ s.cmdRx = b :: bs ∧
           exec (decodeCmdByte s.cfg b s.p.st) { s with sched := ts, cmdRx := bs } = .next t) ∨
         (∃ b bs, u = .decoder ∧ s.kissRx = b :: bs ∧
           exec (decodeKissByte s.cfg (decide (s.k.len = 0)) s.k.drop s.k.esc b) { s with sched := ts, kissRx := bs } =
             .next t))))) := by
  by_cases hc : s.calls = []
  · refine .inr ⟨hc, ?_⟩
    cases hs : s.sched with
    | nil =>
      rw [step_between hc, State.fetch_idle hs] at h
      exact .inl ⟨rfl, (Host.Outcome.next.inj h).symm⟩
    | cons u ts =>
      refine .inr ⟨u, ts, rfl, ?_⟩
      cases u with
      | parser =>
        cases hb : s.cmdRx with
        | nil =>
          simp only [step_between hc, State.fetch, hs, hb] at h
          exact .inl ⟨rfl, rfl, (Host.Outcome.next.inj h).symm⟩
        | cons b bs =>
          rw [step_parser hc hs hb] at h
          exact .inr (.inr (.inr (.inl ⟨b, bs, rfl, rfl, h⟩)))
      | decoder =>
        cases hb : s.kissRx with
        | nil =>
          simp only [step_between hc, State.fetch, hs, hb] at h
          exact .inr (.inl ⟨rfl, rfl, (Host.Outcome.next.inj h).symm⟩)
        | cons b bs =>
          rw [step_decoder hc hs hb] at h
          exact .inr (.inr (.inr (.inr ⟨b, bs, rfl, rfl, h⟩)))
      | outside e =>
        simp only [step_between hc, State.fetch, hs] at h
        exact .inr (.inr (.inl ⟨e, rfl, (Host.Outcome.next.inj h).symm⟩))
  · rw [step_inside hc] at h
    exact .inl ⟨hc, h⟩

/-- A run is a step and then a run. -/
theorem run_succ_of_step {n : Nat} (h : step s = .next t) : Sys2Proof.core.run (n + 1) s = Sys2Proof.core.run n t := by
  have h' : Sys2Proof.core.step s = .next t := h
  simp only [Host.Core.run, h']

@[simp] theorem run_zero : Sys2Proof.core.run 0 s = .next s := rfl

/-- A run that goes on has a first step that goes on. -/
theorem run_succ_next {n : Nat} (h : Sys2Proof.core.run (n + 1) s = .next t) :
    ∃ u : State, step s = .next u ∧ Sys2Proof.core.run n u = .next t := by
  simp only [Host.Core.run] at h
  cases hs : Sys2Proof.core.step s with
  | next u => simp only [hs] at h; exact ⟨u, hs, h⟩
  | fault r => simp only [hs] at h; cases h
  | refused r => simp only [hs] at h; cases h

/-- What every step keeps, every run keeps. -/
theorem run_keeps {I : State → Prop} (keep : ∀ a b, I a → step a = .next b → I b) {n : Nat} (hs : I s)
    (h : Sys2Proof.core.run n s = .next t) : I t := by
  induction n generalizing s with
  | zero => cases h; exact hs
  | succ n ih =>
    obtain ⟨u, hu, hr⟩ := run_succ_next h
    exact ih (keep _ _ hs hu) hr

/-- Two runs one after the other. -/
theorem run_add {m n : Nat} (h : Sys2Proof.core.run m s = .next t) :
    Sys2Proof.core.run (m + n) s = Sys2Proof.core.run n t := by
  induction m generalizing s with
  | zero => cases h; rw [Nat.zero_add]
  | succ m ih =>
    obtain ⟨u, hs, hu⟩ := run_succ_next h
    rw [Nat.succ_add, run_succ_of_step hs, ih hu]

end Sys2Proof.Machine
end

