-- ==== Sys2Proof/Tests/Slice0.lean ====
section
/-! SUPPORT. Tests: ill-formed terms refused, words written out from the spec's encodings, single steps against the worked
examples and 95_test_vectors.md, and a witness for the hypotheses of every statement. Expected values are the spec's, never the
model's own answers. -/

namespace Sys2Proof.Tests

open Sys2Proof.Machine

/-! ## Helpers -/

/-- The decided configuration. -/
def cfg0 : Config := Config.decided

/-- The reference handler's empty success (95_test_vectors.md section 0). -/
def plain : Response :=
  { env := envAtReset, replyStatus := 0, failure := none, payload := some ⟨[], by decide⟩, transmit := false, tx := [],
    psr := [] }

/-- The parser in a given state with bytes waiting and a turn for each. -/
def parserAt (p : Parser) (bytes : List Byte) : State :=
  { State.reset with p := p, cmdRx := bytes, sched := turns bytes.length .parser [], responses := [plain] }

/-- The decoder in a given state with bytes waiting and a turn for each. -/
def decoderAt (k : Kiss) (bytes : List Byte) : State :=
  { State.reset with k := k, kissRx := bytes, sched := turns bytes.length .decoder [] }

/-- A state inside a step that still asks these operations of the units. -/
def insideStep (calls : List Call) : State := { State.reset with calls := calls }

/-- The parser registers `(st, cmd, len, idx, calc, rx)` of the spec's vectors, with `PBUF`. -/
def regs (st : ParserState) (cmd len idx : Byte) (calc' rx : Half) (buf : Memory := []) : Parser :=
  { st := st, cmd := cmd, len := len, idx := idx, computed := calc', rx := rx, buf := buf }

/-- The decoder registers `(len, esc, drop)` with `KBUF`. -/
def kregs (buf : Memory) (len : Nat) (esc drop : Bool) : Kiss := { buf := buf, len := len, esc := esc, drop := drop }

/-- The state a step leads to, when it goes on. -/
def after (s : State) : Option State :=
  match step s with
  | .next t => some t
  | _ => none

/-- A parser at its last byte, the checksum so far right: the payload's bytes stand in `PBUF`. -/
def lastByte (cmd : Byte) (payload : List Byte) (calc' : Half) : State :=
  let n : Byte := lenByte payload
  parserAt (regs .chkLo cmd n n calc' (cat (hi calc') 0) (payload.zipIdx.map fun x => (x.2, x.1))) [lo calc']

/-! ## WellFormed refuses -/

theorem test_wf_decided : cfg0.wf = true := by decide

theorem test_wf_refuses_listed_id : Instr.wf cfg0 (.invalidCmd 0x26) = false := by decide

theorem test_wf_refuses_syncHi_as_syncLo : Instr.wf cfg0 (.syncLo 0xBE) = false := by decide

theorem test_wf_refuses_reply_to_error_id : Instr.wf cfg0 (.reply 0x7F []) = false := by decide

theorem test_wf_refuses_reply_to_rxdata : Instr.wf cfg0 (.reply 0x10 []) = false := by decide

theorem test_wf_refuses_long_reply : Instr.wf cfg0 (.reply 0x25 (List.replicate 256 0)) = false := by
  simp only [Instr.wf, List.length_replicate]; decide

theorem test_wf_refuses_long_rxreply : Instr.wf cfg0 (.rxreply (List.replicate 256 0)) = false := by
  simp only [Instr.wf, List.length_replicate]; decide

theorem test_wf_refuses_rxreply_under_error_id :
    Instr.wf { cfg0 with idRxdata := 0x7F } (.rxreply []) = false := by decide

theorem test_wf_refuses_dropped_fend : Instr.wf cfg0 (.kdrop 0xC0) = false := by decide

theorem test_wf_refuses_good_code_as_bad :
    Instr.wf cfg0 (.badTransposed 0xDC) = false ∧ Instr.wf cfg0 (.badTransposed 0xDD) = false ∧
      Instr.wf cfg0 (.badTransposed 0xC0) = false := by decide

theorem test_wf_refuses_special_literals :
    Instr.wf cfg0 (.kdata 0xC0) = false ∧ Instr.wf cfg0 (.kdata 0xDB) = false ∧
      Instr.wf cfg0 (.kescLiteral 0xC0) = false ∧ Instr.wf cfg0 (.kescLiteral 0xDB) = false := by decide

/-- R222: each condition on a configuration refuses. -/
theorem test_wf_refuses_configurations :
    Config.wf { cfg0 with idReset := 0x02 } = false ∧ Config.wf { cfg0 with idReset := 0x81 } = false ∧
      Config.wf { cfg0 with idReset := 0x7E } = false ∧ Config.wf { cfg0 with idNop := 0x30 } = false ∧
      Config.wf { cfg0 with maxPayload := 256 } = false ∧ Config.wf { cfg0 with maxPayload := 3 } = false ∧
      Config.wf { cfg0 with kissCap := 255 } = false ∧ Config.wf { cfg0 with syncLo := 0xBE } = false ∧
      Config.wf { cfg0 with tfesc := 0xDC } = false ∧ Config.wf { cfg0 with errChecksum := 1 } = false ∧
      Config.wf { cfg0 with errInternal := 0 } = false ∧ Config.wf { cfg0 with idRxdata := 0x26 } = false := by
  decide

/-! ## Words written out from opcode_table.json and 30_encoding.md R69, R72 -/

/-- R69: the thirteen `CMD` bytes. -/
theorem test_decode_commands :
    decode cfg0 (.cmdByte .cmd 0b00000000#8) = .ok .nop ∧ decode cfg0 (.cmdByte .cmd 0b00000001#8) = .ok .reset ∧
      decode cfg0 (.cmdByte .cmd 0b00000010#8) = .ok .txdata ∧ decode cfg0 (.cmdByte .cmd 0b00000011#8) = .ok .txAbort ∧
      decode cfg0 (.cmdByte .cmd 0b00000100#8) = .ok .txPsr ∧ decode cfg0 (.cmdByte .cmd 0b00000101#8) = .ok .getCfg ∧
      decode cfg0 (.cmdByte .cmd 0b00000110#8) = .ok .setCfg ∧ decode cfg0 (.cmdByte .cmd 0b00000111#8) = .ok .saveCfg ∧
      decode cfg0 (.cmdByte .cmd 0b00001000#8) = .ok .cfgDefault ∧ decode cfg0 (.cmdByte .cmd 0b00001001#8) = .ok .setFreq ∧
      decode cfg0 (.cmdByte .cmd 0b00001010#8) = .ok .getQueueDepth ∧
      decode cfg0 (.cmdByte .cmd 0b00100101#8) = .ok .readTxpwr ∧
      decode cfg0 (.cmdByte .cmd 0b00100110#8) = .ok .setTxpwr := by decide

/-- R71, V6.6: reserved ids, reply bit, `ID_RXDATA`. -/
theorem test_decode_invalid_commands :
    decode cfg0 (.cmdByte .cmd 0b01111110#8) = .ok (.invalidCmd 0x7E) ∧
      decode cfg0 (.cmdByte .cmd 0b11111111#8) = .ok (.invalidCmd 0xFF) ∧
      decode cfg0 (.cmdByte .cmd 0b00010000#8) = .ok (.invalidCmd 0x10) := by decide

/-- R60: the six field positions; in each the byte itself is the operand. -/
theorem test_decode_fields :
    decode cfg0 (.cmdByte .sync0 0b10111110#8) = .ok (.syncHi 0xBE) ∧
      decode cfg0 (.cmdByte .sync1 0b10111110#8) = .ok (.syncHi 0xBE) ∧
      decode cfg0 (.cmdByte .sync1 0b11101111#8) = .ok (.syncLo 0xEF) ∧
      decode cfg0 (.cmdByte .len 0b00000100#8) = .ok (.len 4) ∧
      decode cfg0 (.cmdByte .payload 0b10111110#8) = .ok (.payload 0xBE) ∧
      decode cfg0 (.cmdByte .chkHi 0b10111110#8) = .ok (.chkhi 0xBE) ∧
      decode cfg0 (.cmdByte .chkLo 0b11101111#8) = .ok (.chklo 0xEF) := by decide

/-- R72: every byte class of the KISS side. -/
theorem test_decode_kiss :
    decode cfg0 (.kissByte true true false 0b11000000#8) = .ok .fendPad ∧
      decode cfg0 (.kissByte false false false 0b11000000#8) = .ok .fendEnd ∧
      decode cfg0 (.kissByte true true false 0b11011011#8) = .ok (.kdrop 0xDB) ∧
      decode cfg0 (.kissByte false false true 0b11011100#8) = .ok .tfend ∧
      decode cfg0 (.kissByte false false true 0b11011101#8) = .ok .tfesc ∧
      decode cfg0 (.kissByte false false true 0b01000001#8) = .ok (.badTransposed 0x41) ∧
      decode cfg0 (.kissByte false false false 0b11011011#8) = .ok .fesc ∧
      decode cfg0 (.kissByte false false false 0b11011101#8) = .ok (.kdata 0xDD) ∧
      decode cfg0 (.kissByte false false false 0b00000000#8) = .ok (.kdata 0) ∧
      decode cfg0 (.kissByte true false false 0b00000000#8) = .ok .kissCmdData := by decide

/-- R61, R181, R182: the command byte of a reply selects its row. -/
theorem test_decode_replies :
    decode cfg0 (.call (.reply 0b10100101#8 [0, 0x64])) = .ok (.reply 0x25 [0, 0x64]) ∧
      decode cfg0 (.call (.reply 0b11111111#8 [3])) = .ok (.errreply 3) ∧
      decode cfg0 (.call (.reply 0b10010000#8 [])) = .ok (.rxreply []) ∧
      decode cfg0 (.call (.reply 0b00100101#8 [])) = .error .notAReply ∧
      decode cfg0 (.call (.reply 0b11111111#8 [])) = .error .errorOperand := by decide

/-- R101, R102, R90. -/
theorem test_decode_units :
    decode cfg0 (.call .kencStart) = .ok .kencOpen ∧
      decode cfg0 (.call (.kencByte 0b11000000#8)) = .ok .kescFend ∧
      decode cfg0 (.call (.kencByte 0b11011011#8)) = .ok .kescFesc ∧
      decode cfg0 (.call (.kencByte 0b11011100#8)) = .ok (.kescLiteral 0xDC) ∧
      decode cfg0 (.call .kencEnd) = .ok .kencClose ∧
      decode cfg0 (.call (.engine 0x1234 0)) = .ok (.f 0x1234 0) := by decide

/-- The table's bytes by their number alone (log 12). -/
theorem test_decodeTableWord :
    decodeTableWord 8 0x26 = some .setTxpwr ∧ decodeTableWord 8 0xBE = some (.syncHi 0xBE) ∧
      decodeTableWord 8 0xEF = some (.syncLo 0xEF) ∧ decodeTableWord 8 0xC0 = some .fendPad ∧
      decodeTableWord 8 0xDB = some .fesc ∧ decodeTableWord 8 0xDC = some .tfend ∧ decodeTableWord 8 0xDD = some .tfesc ∧
      decodeTableWord 8 0xFF = some (.errreply 0) ∧ decodeTableWord 8 0x90 = some (.rxreply []) ∧
      decodeTableWord 8 0xA5 = some (.reply 0x25 []) ∧ decodeTableWord 8 0x99 = some (.reply 0x19 []) ∧
      decodeTableWord 8 0x30 = some (.invalidCmd 0x30) ∧ decodeTableWord 16 0x26 = none := by decide

/-- `withFetchWord` makes the next step run the word's instruction: `SET_TXPWR` as the first instruction after reset (R133). -/
theorem test_withFetchWord :
    (after (State.reset.withFetchWord 8 0x26)).map (·.p) = some (regs .len 0x26 0 0 0x2626 0) := by decide

/-! ## Single steps of the parser: the register trace of V6.13 and the error vectors -/

theorem test_step_syncHi :
    (after (parserAt (regs .sync0 0 0 0 0 0) [0xBE])).map (·.p) = some (regs .sync1 0 0 0 0 0) ∧
      (after (parserAt (regs .sync1 0 0 0 0 0) [0xBE])).map (·.p) = some (regs .sync1 0 0 0 0 0) := by decide

theorem test_step_syncLo :
    (after (parserAt (regs .sync1 0 0 0 0 0) [0xEF])).map (·.p) = some (regs .cmd 0 0 0 0 0) ∧
      (after (parserAt (regs .sync1 0 0 0 0 0) [0x00])).map (·.p) = some (regs .sync0 0 0 0 0 0) := by decide

theorem test_step_command_byte :
    (after (parserAt (regs .cmd 0 0 0 0 0) [0x26])).map (·.p) = some (regs .len 0x26 0 0 0x2626 0) := by decide

/-- V6.7: the offending byte is consumed; the error reply of code 1 is V9's shape `BE EF 00 FF 01 01`. -/
theorem test_step_invalid_command :
    (after (parserAt (regs .cmd 0 0 0 0 0) [0xBE])).map (fun t => (t.p, t.event, t.cmdTx.take 6, t.cmdTx.length)) =
      some (regs .sync0 0 0 0 0 0, .error 1, [0xBE, 0xEF, 0x00, 0xFF, 0x01, 0x01], 8) := by decide

theorem test_step_len :
    (after (parserAt (regs .len 0x26 0 0 0x2626 0) [0x02])).map (·.p) = some (regs .payload 0x26 2 0 0x284E 0) := by decide

/-- V6.8. -/
theorem test_step_len_invalid :
    (after (parserAt (regs .len 0x26 0 0 0x2626 0) [0x03])).map (fun t => (t.p, t.event)) =
      some (regs .sync0 0 0 0 0 0, .error 2) := by decide

theorem test_step_payload :
    (after (parserAt (regs .payload 0x26 2 1 0x2876 0 [(0, 0)]) [0x64])).map (·.p) =
      some (regs .chkHi 0x26 2 2 0x8C02 0 [(0, 0), (1, 0x64)]) := by decide

theorem test_step_chkhi :
    (after (parserAt (regs .chkHi 0x26 2 2 0x8C02 0 []) [0x8C])).map (·.p) =
      some (regs .chkLo 0x26 2 2 0x8C02 0x8C00 []) := by decide

/-- S2: `SET_TXPWR` stores `0064` and its reply is `BE EF 00 A6 00 A6 4C`. -/
theorem test_step_dispatch_setTxpwr :
    (after (lastByte 0x26 [0x00, 0x64] 0x8C02)).map (fun t => (t.event, t.env.power, t.cmdTx)) =
      some (.dispatch 0x26 2 [0x00, 0x64], 0x0064, [0xBE, 0xEF, 0x00, 0xA6, 0x00, 0xA6, 0x4C]) := by decide

/-- V6.15 and S3: the wrong low byte; output `BE EF 00 FF 01 03 03 02`. -/
theorem test_step_checksum_mismatch :
    (after (parserAt (regs .chkLo 0x26 2 2 0x8C02 0x8C00 [(0, 0), (1, 0x64)]) [0x03])).map
        (fun t => (t.event, t.cmdTx, t.dispatches)) =
      some (.error 3, [0xBE, 0xEF, 0x00, 0xFF, 0x01, 0x03, 0x03, 0x02], []) := by decide

/-- S1: `NOP` answers `BE EF 00 80 00 80 00`; V7.2: `RESET` answers nothing. -/
theorem test_step_dispatch_nop_reset :
    (after (lastByte 0x00 [] 0x0000)).map (·.cmdTx) = some [0xBE, 0xEF, 0x00, 0x80, 0x00, 0x80, 0x00] ∧
      (after (lastByte 0x01 [] 0x0102)).map (·.cmdTx) = some [] := by decide

/-- S2: `READ_TXPWR` with power `0064` answers `BE EF 00 A5 02 00 64 0B FE`. -/
theorem test_step_dispatch_readTxpwr :
    (after { lastByte 0x25 [] 0x254A with env := { envAtReset with power := 0x0064 } }).map (·.cmdTx) =
      some [0xBE, 0xEF, 0x00, 0xA5, 0x02, 0x00, 0x64, 0x0B, 0xFE] := by decide

/-- R172: `GET_QUEUE_DEPTH` with depth 3 answers `BE EF 00 8A 02 00 03 8F 31`. -/
theorem test_step_dispatch_getQueueDepth :
    (after { lastByte 0x0A [] 0x0A14 with env := { envAtReset with depth := 3 } }).map (·.cmdTx) =
      some [0xBE, 0xEF, 0x00, 0x8A, 0x02, 0x00, 0x03, 0x8F, 0x31] := by decide

/-- R164: the reference handler's `TXDATA`. -/
theorem test_step_dispatch_txdata :
    (after { lastByte 0x02 [0x41, 0xC0, 0x42] 0x489B with responses := [{ plain with transmit := true }] }).map
        (fun t => (t.kissTx, t.cmdTx)) =
      some ([0xC0, 0x00, 0x41, 0xDB, 0xDC, 0x42, 0xC0], [0xBE, 0xEF, 0x00, 0x82, 0x00, 0x82, 0x04]) := by decide

/-- R171: `19 F0 A0 40` is 435 200 064 Hz. -/
theorem test_step_dispatch_setFreq :
    (after (lastByte 0x09 [0x19, 0xF0, 0xA0, 0x40] 0xF6FE)).map (·.env.freq.toNat) = some 435200064 := by decide

/-- R194: a handler that is not implemented; R195: one that fails inside. -/
theorem test_step_dispatch_failures :
    (after { lastByte 0x03 [] 0x0306 with responses := [{ plain with failure := some .notImpl }] }).map
        (fun t => t.cmdTx.take 6) = some [0xBE, 0xEF, 0x00, 0xFF, 0x01, 0x04] ∧
      (after { lastByte 0x05 [] 0x050A with responses := [{ plain with failure := some .internal }] }).map
        (fun t => t.cmdTx.take 6) = some [0xBE, 0xEF, 0x00, 0xFF, 0x01, 0x05] := by decide

/-- The five other commands reach their handler (R165 to R170, worked examples). -/
theorem test_step_dispatch_others :
    (after (lastByte 0x03 [] 0x0306)).map (·.event) = some (.dispatch 3 0 []) ∧
      (after (lastByte 0x04 [] 0x0408)).map (·.event) = some (.dispatch 4 0 []) ∧
      (after (lastByte 0x05 [] 0x050A)).map (·.event) = some (.dispatch 5 0 []) ∧
      (after (lastByte 0x06 [0x01, 0xAA] 0xB3CA)).map (·.event) = some (.dispatch 6 2 [0x01, 0xAA]) ∧
      (after (lastByte 0x07 [] 0x070E)).map (·.event) = some (.dispatch 7 0 []) ∧
      (after (lastByte 0x08 [] 0x0810)).map (·.event) = some (.dispatch 8 0 []) := by decide

/-- R40, R173: an open handler's `TX` item is a KISS frame, `TX_PSR`'s test sequence too; the escapes are R101's. -/
theorem test_step_dispatch_tx_items :
    (after { lastByte 0x03 [] 0x0306 with responses := [{ plain with tx := [[0xC0]], psr := [[0x55]] }] }).map (·.kissTx) =
        some [0xC0, 0x00, 0xDB, 0xDC, 0xC0] ∧
      (after { lastByte 0x04 [] 0x0408 with responses := [{ plain with psr := [[0xDB]] }] }).map (·.kissTx) =
        some [0xC0, 0x00, 0xDB, 0xDD, 0xC0] := by decide

/-- R220: a new instance is at its reset values; the handlers' environment and answers go on (log 6). -/
theorem test_newInstance :
    let s := { parserAt (regs .payload 0x26 2 1 0x2876 0 [(0, 0)]) [0x64] with draws := 3, env := { envAtReset with power := 7 } }.newInstance
    s.p = Parser.reset ∧ s.k = Kiss.reset ∧ s.cmdRx = [] ∧ s.env.power = 7 ∧ s.responses = [plain] ∧ s.draws = 3 := by
  decide

/-! ## Single steps of the decoder (42_kiss_decode.md worked examples, V5) -/

theorem test_step_fendPad :
    (after (decoderAt (kregs [] 0 false true) [0xC0])).map (fun t => (t.k, t.event)) =
      some (kregs [] 0 false false, .none) := by decide

theorem test_step_fendEnd :
    (after (decoderAt (kregs [(0, 0), (1, 0x41)] 2 false false) [0xC0])).map (fun t => (t.k.len, t.event, t.cmdTx)) =
      some (0, .rxframe [0x41], [0xBE, 0xEF, 0x00, 0x90, 0x01, 0x41, 0xD2, 0xF3]) := by decide

/-- V5.24: the dangling escape is tested before the command byte; V5.12. -/
theorem test_step_fendEnd_errors :
    (after (decoderAt (kregs [(0, 1)] 1 true false) [0xC0])).map (fun t => (t.event, t.cmdTx)) =
        some (.kerr .danglingEsc, []) ∧
      (after (decoderAt (kregs [(0, 1), (1, 0x41)] 2 false false) [0xC0])).map (fun t => (t.event, t.cmdTx)) =
        some (.kerr .badCmd, []) := by decide

/-- V5.32. -/
theorem test_step_kdrop :
    (after (decoderAt (kregs [] 0 false true) [0xDB])).map (fun t => (t.k, t.event)) =
      some (kregs [] 0 false true, .none) := by decide

theorem test_step_transposed :
    (after (decoderAt (kregs [(0, 0)] 1 true false) [0xDC])).map (·.k) =
        some (kregs [(0, 0), (1, 0xC0)] 2 false false) ∧
      (after (decoderAt (kregs [(0, 0)] 1 true false) [0xDD])).map (·.k) =
        some (kregs [(0, 0), (1, 0xDB)] 2 false false) := by decide

/-- V5.29: a bad code on a full buffer is `BAD_ESC`; V5.30: a good one overflows. -/
theorem test_step_full_buffer :
    (after (decoderAt (kregs [(0, 0)] 256 true false) [0x00])).map (fun t => (t.k, t.event)) =
        some (kregs [(0, 0)] 0 false true, .kerr .badEsc) ∧
      (after (decoderAt (kregs [(0, 0)] 256 true false) [0xDC])).map (fun t => (t.k, t.event)) =
        some (kregs [(0, 0)] 0 false true, .kerr .overflow) := by decide

theorem test_step_fesc :
    (after (decoderAt (kregs [(0, 0)] 1 false false) [0xDB])).map (·.k) = some (kregs [(0, 0)] 1 true false) := by decide

/-- R116, R117 worked examples. -/
theorem test_step_literal :
    (after (decoderAt (kregs [] 0 false false) [0x00])).map (·.k) = some (kregs [(0, 0)] 1 false false) ∧
      (after (decoderAt (kregs [(0, 0)] 1 false false) [0xDC])).map (·.k) =
        some (kregs [(0, 0), (1, 0xDC)] 2 false false) ∧
      (after (decoderAt (kregs [(0, 0)] 256 false false) [0x41])).map (fun t => (t.k, t.event)) =
        some (kregs [(0, 0)] 0 false true, .kerr .overflow) := by decide

/-! ## Single steps of the units -/

/-- R180, R181, R182 worked examples, and S1 without the status byte. -/
theorem test_step_replies :
    (after (insideStep [.reply 0x80 []])).map (·.cmdTx) = some [0xBE, 0xEF, 0x00, 0x80, 0x00, 0x80, 0x00] ∧
      (after (insideStep [.reply 0xFF [3]])).map (·.cmdTx) = some [0xBE, 0xEF, 0x00, 0xFF, 0x01, 0x03, 0x03, 0x02] ∧
      (after (insideStep [.reply 0x90 [0x41]])).map (·.cmdTx) =
        some [0xBE, 0xEF, 0x00, 0x90, 0x01, 0x41, 0xD2, 0xF3] ∧
      (after { insideStep [.reply 0x80 []] with cfg := { cfg0 with hasStatus := false } }).map (·.cmdTx) =
        some [0xBE, 0xEF, 0x80, 0x00, 0x80, 0x00] := by decide

/-- R102, V4.1, V4.2, V4.3. -/
theorem test_step_encoder :
    (after (insideStep [.kencStart])).map (·.kissTx) = some [0xC0, 0x00] ∧
      (after (insideStep [.kencByte 0xC0])).map (·.kissTx) = some [0xDB, 0xDC] ∧
      (after (insideStep [.kencByte 0xDB])).map (·.kissTx) = some [0xDB, 0xDD] ∧
      (after (insideStep [.kencByte 0xDC])).map (·.kissTx) = some [0xDC] ∧
      (after (insideStep [.kencEnd])).map (·.kissTx) = some [0xC0] := by decide

/-- V1.5, V1.10, V1.11 and, under `F_ALT`, V3.3's last step. -/
theorem test_step_engine :
    (after (insideStep [.engine 0x2876 0x64])).map (·.engineOut) = some 0x8C02 ∧
      (after (insideStep [.engine 0x00FF 0x01])).map (·.engineOut) = some 0x0100 ∧
      (after (insideStep [.engine 0xFF00 0x01])).map (·.engineOut) = some 0x0000 ∧
      (after { insideStep [.engine 0x284E 0x64] with cfg := { cfg0 with checksum := .oldHigh } }).map (·.engineOut) =
        some 0x8C76 := by decide

/-- V2.5, V2.10, V2.16; V4.14. -/
theorem test_sequences :
    fletcher cfg0 [0x01, 0x00] = 0x0102 ∧ fletcher cfg0 [1, 2, 3, 4, 5] = 0x0F23 ∧ fletcher cfg0 [0xBE, 0xEF] = 0xAD6B ∧
      kenc cfg0 [0xDB, 0xDC] = [0xC0, 0x00, 0xDB, 0xDD, 0xDC, 0xC0] := by decide

/-- R19: 9 bits for the decided `KISS_CAP` of 256. -/
theorem test_kissLenBits : cfg0.kissLenBits = 9 ∧ Config.kissLenBits { cfg0 with kissCap := 511 } = 9 ∧
    Config.kissLenBits { cfg0 with kissCap := 512 } = 10 := by decide

/-! ## Witnesses: for each statement with hypotheses, a concrete state and operands that meet them -/

/-- A parser holding `SET_TXPWR` 00 64 with its checksum, before its last byte. -/
def full : State := lastByte 0x26 [0x00, 0x64] 0x8C02

/-- The same before a wrong last byte. -/
def spoiled : State := parserAt (regs .chkLo 0x26 2 2 0x8C02 0x8C00 [(0, 0), (1, 0x64)]) [0x03]

/-- Every state `State.created` gives under a well-formed configuration meets the invariant, and so does one with only the
streams and the schedule changed. -/
theorem inv_fresh {cfg : Config} (h : cfg.wf = true) (s : State) (hc : s.cfg = cfg) (hp : s.p = Parser.reset)
    (hk : s.k = Kiss.reset) (hb : s.calls = []) : Inv s := by
  subst hc
  refine ⟨h, ?_, ?_, hb⟩
  · rw [hp]
    constructor <;> simp [Parser.reset, ParserState.pastCmd, ParserState.pastLen, Memory.get?, Memory.wf, lo]
  · rw [hk]
    constructor <;> simp [Kiss.reset, Memory.get?, Memory.wf]

theorem witness_DecodeOfEncodeIsIdentity :
    cfg0.wf = true ∧ Instr.wf cfg0 (.reply 0x25 [0, 0x64]) = true ∧ Instr.wf cfg0 (.badTransposed 0xDB) = true ∧
      Instr.wf cfg0 (.kdata 0xFF) = true ∧ Instr.wf cfg0 (.invalidCmd 0xFF) = true := by decide

theorem witness_DecodedIsWellFormedAndKeepsItsBytes :
    cfg0.wf = true ∧ decode cfg0 (.kissByte false false true 0xDB) = .ok (.badTransposed 0xDB) := by decide

theorem witness_ValidCommandBytesAreTheTableIds :
    validCmd cfg0 0x00 = true ∧ validCmd cfg0 0x26 = true ∧ validCmd cfg0 0x27 = false ∧ validCmd cfg0 0xFF = false := by
  decide

theorem witness_StepRunsTheDecodedInstruction :
    (parserAt (regs .cmd 0 0 0 0 0) [0x26]).calls = [] ∧
      (parserAt (regs .cmd 0 0 0 0 0) [0x26]).sched = [.parser] ∧ (parserAt (regs .cmd 0 0 0 0 0) [0x26]).cmdRx = [0x26] ∧
      decode cfg0 (.cmdByte .cmd 0x26) = .ok .setTxpwr ∧
      (decoderAt (kregs [] 0 false false) [0x00]).sched = [.decoder] ∧
      (decoderAt (kregs [] 0 false false) [0x00]).kissRx = [0x00] ∧
      decode cfg0 (.kissByte true false false 0x00) = .ok .kissCmdData ∧
      (insideStep [.kencEnd]).calls = [.kencEnd] ∧ decode cfg0 (.call .kencEnd) = .ok .kencClose ∧
      (insideStep [.kencStart, .kencEnd]).calls = [.kencStart, .kencEnd] ∧
      decode cfg0 (.call .kencStart) = .ok .kencOpen := by decide

/-- The last clause's premise on the first of several operations. -/
theorem witness_StepRunsTheDecodedInstruction_several :
    ∃ t : State, exec .kencOpen { insideStep [.kencStart, .kencEnd] with calls := [] } = .next t := ⟨_, rfl⟩

theorem witness_QuietMovesChangeNothingElse :
    State.reset.calls = [] ∧ State.reset.sched = [] ∧ { State.reset with sched := [.parser] }.cmdRx = [] ∧
      { State.reset with sched := [.decoder] }.kissRx = [] ∧
      { State.reset with sched := [.outside envAtReset] }.sched = [.outside envAtReset] := by decide

theorem witness_ParserTurnIsParseStep :
    Inv (parserAt Parser.reset [0xBE]) ∧ (parserAt Parser.reset [0xBE]).sched = [.parser] ∧
      (parserAt Parser.reset [0xBE]).cmdRx = [0xBE] :=
  ⟨inv_fresh test_wf_decided _ rfl rfl rfl rfl, rfl, rfl⟩

theorem witness_DecoderTurnIsKdecStep :
    Inv (decoderAt Kiss.reset [0xC0]) ∧ (decoderAt Kiss.reset [0xC0]).cfg.kissCap ≤ 256 ∧
      (decoderAt Kiss.reset [0xC0]).sched = [.decoder] ∧ (decoderAt Kiss.reset [0xC0]).kissRx = [0xC0] :=
  ⟨inv_fresh test_wf_decided _ rfl rfl rfl rfl, le_rfl, rfl, rfl⟩

theorem witness_FirstSyncByteRule : State.reset.p.st = .sync0 := by decide

theorem witness_SecondSyncByteRule :
    cfg0.syncHi ≠ cfg0.syncLo ∧ (parserAt (regs .sync1 0 0 0 0 0) [0xEF]).p.st = .sync1 ∧
      decode cfg0 (.cmdByte .sync1 0xEF) = .ok (.syncLo 0xEF) ∧ decode cfg0 (.cmdByte .sync1 0xBE) = .ok (.syncHi 0xBE) ∧
      decode cfg0 (.cmdByte .sync1 0xFF) = .ok (.syncLo 0xFF) := by decide

theorem witness_LengthByteRule :
    cfg0.command? 0x26 = some .setTxpwr ∧ validLen cfg0 .setTxpwr 2 = true ∧ validLen cfg0 .setTxpwr 3 = false ∧
      validLen cfg0 .setTxpwr 1 = false ∧ validLen cfg0 .txdata 255 = true ∧ validLen cfg0 .txdata 0 = false ∧
      validLen cfg0 .nop 0 = true ∧ validLen cfg0 .nop 1 = false := by decide

theorem witness_PayloadByteRule :
    (parserAt (regs .payload 0x02 255 254 0 0) [0xAA]).p.idx.toNat < cfg0.maxPayload ∧
      (parserAt (regs .payload 0x02 255 254 0 0) [0xAA]).p.st = .payload := by decide

theorem witness_LowChecksumByteRule :
    full.cfg.command? full.p.cmd = some .setTxpwr ∧ full.p.len.toNat ≤ full.cfg.maxPayload ∧
      cat (hi full.p.rx) 0x02 = full.p.computed ∧ cat (hi full.p.rx) 0x03 ≠ full.p.computed := by decide

theorem witness_DispatchFrame :
    full.cfg.command? full.p.cmd = some .setTxpwr ∧ full.p.len.toNat ≤ full.cfg.maxPayload ∧
      cat (hi full.p.rx) 0x02 = full.p.computed := by decide

theorem witness_ErrorEntry :
    (parserAt (regs .len 0x26 0 0 0x2626 0) [3]).cfg.command? 0x26 = some .setTxpwr ∧
      validLen cfg0 .setTxpwr 3 = false ∧ cat (hi spoiled.p.rx) 0x03 ≠ spoiled.p.computed := by decide

theorem witness_ValidatedIdWithoutHandlerFaults :
    cfg0.command? (lastByte 0x30 [] 0x3060).p.cmd = none ∧
      cat (hi (lastByte 0x30 [] 0x3060).p.rx) 0x60 = (lastByte 0x30 [] 0x3060).p.computed := by decide

theorem witness_OutOfBoundsFaults :
    cfg0.maxPayload ≤ (parserAt (regs .payload 0x02 255 255 0 0) [0]).p.idx.toNat ∧
      cfg0.kissCap < (decoderAt (kregs [] 257 false false) [0]).k.len ∧
      cfg0.command? (parserAt (regs .len 0x30 0 0 0 0) [0]).p.cmd = none := by decide

theorem witness_NopAlwaysSucceeds :
    (lastByte 0x00 [] 0).cfg.command? (lastByte 0x00 [] 0).p.cmd = some .nop ∧
      (lastByte 0x00 [] 0).p.len.toNat ≤ cfg0.maxPayload ∧
      cat (hi (lastByte 0x00 [] 0).p.rx) 0 = (lastByte 0x00 [] 0).p.computed := by decide

theorem witness_ResetCommandSendsNoReply :
    (lastByte 0x01 [] 0x0102).cfg.command? (lastByte 0x01 [] 0x0102).p.cmd = some .reset ∧
      (lastByte 0x01 [] 0x0102).p.len.toNat ≤ cfg0.maxPayload ∧
      cat (hi (lastByte 0x01 [] 0x0102).p.rx) 2 = (lastByte 0x01 [] 0x0102).p.computed := by decide

/-- The three clauses: a reading command that succeeds, the other one, and one whose handler fails. -/
theorem witness_ReadingCommandsReplyBigEndian :
    (lastByte 0x25 [] 0x254A).p.len.toNat ≤ cfg0.maxPayload ∧
      cat (hi (lastByte 0x25 [] 0x254A).p.rx) 0x4A = (lastByte 0x25 [] 0x254A).p.computed ∧
      (lastByte 0x25 [] 0x254A).cfg.command? 0x25 = some .readTxpwr ∧
      (lastByte 0x25 [] 0x254A).response.failure = none ∧
      cat (hi (lastByte 0x0A [] 0x0A14).p.rx) 0x14 = (lastByte 0x0A [] 0x0A14).p.computed ∧
      (lastByte 0x0A [] 0x0A14).cfg.command? 0x0A = some .getQueueDepth ∧
      (lastByte 0x0A [] 0x0A14).response.failure = none ∧
      { lastByte 0x25 [] 0x254A with responses := [{ plain with failure := some .internal }] }.response.failure =
        some .internal := by decide

theorem witness_SetTxpwrStoresItsOperand :
    full.cfg.command? full.p.cmd = some .setTxpwr ∧ full.p.len = 2 ∧ 2 ≤ full.cfg.maxPayload ∧
      cat (hi full.p.rx) 0x02 = full.p.computed ∧ full.response.failure = none := by decide

/-- A parser holding `SET_FREQ` 19 F0 A0 40. -/
def tuned : State := lastByte 0x09 [0x19, 0xF0, 0xA0, 0x40] 0xF6FE

theorem witness_SetFreqStoresItsOperand :
    tuned.cfg.command? tuned.p.cmd = some .setFreq ∧ tuned.p.len = 4 ∧ 4 ≤ tuned.cfg.maxPayload ∧
      cat (hi tuned.p.rx) 0xFE = tuned.p.computed ∧ tuned.response.failure = none := by decide

/-- A parser holding `TXDATA` 41 C0 42 before a handler that transmits. -/
def sending : State := { lastByte 0x02 [0x41, 0xC0, 0x42] 0x489B with responses := [{ plain with transmit := true }] }

theorem witness_TxdataTransmitsItsPayload :
    sending.cfg.command? sending.p.cmd = some .txdata ∧ sending.p.len.toNat ≤ sending.cfg.maxPayload ∧
      cat (hi sending.p.rx) 0x9B = sending.p.computed ∧ sending.response.failure = none ∧
      sending.response.transmit = true := by decide

theorem witness_EveryDispatchSendsAtMostOneReply :
    full.cfg.command? full.p.cmd = some .setTxpwr ∧ full.p.len.toNat ≤ full.cfg.maxPayload ∧
      cat (hi full.p.rx) 0x02 = full.p.computed := by decide

theorem witness_ReplyRule : (List.replicate 255 (0 : Byte)).length ≤ 255 ∧ ([] : List Byte).length ≤ 255 := by
  rw [List.length_replicate]; decide

theorem witness_ReceivedDataReplyRule : (List.replicate 255 (0 : Byte)).length ≤ 255 := by
  rw [List.length_replicate]

/-- A configuration with a KISS buffer larger than a reply can carry (R118, U17). -/
def roomy : Config := { cfg0 with kissCap := 300 }

theorem witness_OverlongRepliesAreRefused :
    255 < (List.replicate 256 (0 : Byte)).length ∧ roomy.wf = true ∧ 256 < (kregs [(0, 0)] 257 false false).len ∧
      (kregs [(0, 0)] 257 false false).len ≤ roomy.kissCap ∧
      (kregs [(0, 0)] 257 false false).buf.readKbuf 0 = roomy.kissCmdData := by
  rw [List.length_replicate]; decide

theorem witness_StatusByteMovesBothChecksumBytes :
    cfg0.wf = true ∧ cfg0.checksum = .newHigh ∧ cfg0.hasStatus = true := by decide

theorem witness_OnlyWholeRepliesAreEmitted :
    State.reset.cfg.wf = true ∧ WholeReplies State.reset.cfg State.reset.cmdTx ∧ step State.reset = .next State.reset :=
  ⟨test_wf_decided, ⟨[], by simp, rfl⟩, rfl⟩

theorem witness_ChecksumUpdateRule :
    State.reset.cfg.checksum = .newHigh ∧ { cfg0 with checksum := .oldHigh }.checksum = .oldHigh := by decide

theorem witness_ChecksumIsAFold : cfg0.wf = true ∧ { cfg0 with checksum := .oldHigh }.wf = true := by decide

theorem witness_ChecksumClosedForm : cfg0.wf = true ∧ cfg0.checksum = .newHigh := by decide

theorem witness_SingleByteChangeIsDetected : (0x64 : Byte) ≠ 0x65 ∧ (0x00 : Byte) ≠ 0xFF := by decide

theorem witness_EscapeRule :
    State.reset.cfg.wf = true ∧ (0xDC : Byte) ≠ cfg0.fend ∧ (0xDC : Byte) ≠ cfg0.fesc := by decide

theorem witness_EncoderOperationsSpellTheFrame :
    (insideStep [.kencStart, .kencByte 0xC0, .kencEnd]).calls = .kencStart :: [0xC0].map .kencByte ++ [.kencEnd] := by
  decide

theorem witness_EncodedFrameShape : cfg0.wf = true := by decide

theorem witness_EncodingIsInjective : cfg0.wf = true ∧ kenc cfg0 [0xDB, 0xDC] = kenc cfg0 [0xDB, 0xDC] := by decide

/-- The three clauses, the last at the largest length a reply can carry. -/
theorem witness_EndOfFrameRule :
    (decoderAt (kregs [(0, 0)] 1 true false) [0xC0]).k.len ≤ cfg0.kissCap ∧
      (decoderAt (kregs [(0, 0)] 1 true false) [0xC0]).k.esc = true ∧
      (decoderAt (kregs [(0, 1)] 1 false false) [0xC0]).k.buf.readKbuf 0 ≠ cfg0.kissCmdData ∧
      (decoderAt (kregs [(0, 0)] 256 false false) [0xC0]).k.buf.readKbuf 0 = cfg0.kissCmdData ∧
      (decoderAt (kregs [(0, 0)] 256 false false) [0xC0]).k.len ≤ 256 ∧
      (decoderAt (kregs [(0, 0)] 256 false false) [0xC0]).k.len ≤ cfg0.kissCap := by decide

theorem witness_TransposedCodeRule :
    (decoderAt (kregs [] 255 true false) [0xDC]).k.len < cfg0.kissCap ∧
      (decoderAt (kregs [] 256 true false) [0xDC]).k.len = cfg0.kissCap := by decide

theorem witness_AppendRule :
    (decoderAt (kregs [] 255 false false) [0x41]).k.len < cfg0.kissCap ∧
      (decoderAt (kregs [] 256 false false) [0x41]).k.len = cfg0.kissCap := by decide

theorem witness_KissErrorsAreSilent :
    ∃ t : State, step (decoderAt (kregs [(0, 0)] 1 true false) [0xDB]) = .next t ∧ t.event = .kerr .badEsc ∧
      (decoderAt (kregs [(0, 0)] 1 true false) [0xDB]).calls = [] ∧
      (decoderAt (kregs [(0, 0)] 1 true false) [0xDB]).sched = [.decoder] ∧
      (decoderAt (kregs [(0, 0)] 1 true false) [0xDB]).kissRx = [0xDB] :=
  ⟨_, rfl, rfl, rfl, rfl, rfl⟩

theorem witness_StoredDelimiterWasTransposed :
    ∃ t : State, step (decoderAt (kregs [(0, 0)] 1 true false) [0xDC]) = .next t ∧ t.k.len = 2 ∧
      t.k.buf.readKbuf 1 = cfg0.fend ∧ (decoderAt (kregs [(0, 0)] 1 true false) [0xDC]).calls = [] ∧ (decoderAt (kregs [(0, 0)] 1 true false) [0xDC]).sched = [.decoder] ∧
      (decoderAt (kregs [(0, 0)] 1 true false) [0xDC]).kissRx = [0xDC] ∧ cfg0.wf = true :=
  ⟨_, rfl, rfl, rfl, rfl, rfl, rfl, test_wf_decided⟩

theorem witness_KissRoundTrip :
    let s := decoderAt Kiss.reset [0xC0, 0x00, 0x41, 0xDB, 0xDC, 0x42, 0xC0]
    s.cfg.wf = true ∧ s.calls = [] ∧ s.k.len = 0 ∧ s.k.esc = false ∧ 1 + [0x41, 0xC0, 0x42].length ≤ s.cfg.kissCap ∧
      s.kissRx = kenc s.cfg [0x41, 0xC0, 0x42] ++ [] ∧
      s.sched = turns (kenc s.cfg [0x41, 0xC0, 0x42]).length .decoder [] := by decide

/-- V6.19: two frames, the first ending in the bytes of the sync pair. -/
theorem witness_BackToBackFramesAreDispatched :
    let s := parserAt Parser.reset
      [0xBE, 0xEF, 0x02, 0x02, 0x27, 0x93, 0xBE, 0xEF, 0xBE, 0xEF, 0x00, 0x00, 0x00, 0x00]
    let frames : List (Command × List Byte) := [(.txdata, [0x27, 0x93]), (.nop, [])]
    s.cfg.wf = true ∧ s.calls = [] ∧ s.p.st = .sync0 ∧
      (∀ f ∈ frames, f.2.length ≤ 255 ∧ validLen s.cfg f.1 (lenByte f.2) = true) ∧
      s.cmdRx = frames.flatMap (fun f => commandFrame s.cfg (s.cfg.id f.1) f.2) ++ [] ∧
      s.sched = turns (frames.map fun f => 6 + f.2.length).sum .parser [] := by decide

/-- V6.2: noise, then a frame. -/
theorem witness_LeadingNoiseIsHarmless :
    let s := parserAt Parser.reset [0x41, 0xBE, 0xBE, 0xEF, 0x00, 0x00, 0x00, 0x00]
    s.cfg.wf = true ∧ s.calls = [] ∧ s.p.st = .sync0 ∧ ¬ [s.cfg.syncHi, s.cfg.syncLo] <:+: [0x41, 0xBE] ∧
      validLen s.cfg .nop (lenByte []) = true ∧
      s.cmdRx = [0x41, 0xBE] ++ commandFrame s.cfg (s.cfg.id .nop) [] ++ [] ∧
      s.sched = turns (2 + (6 + 0)) .parser [] := by decide

/-- V6.15. -/
theorem witness_WrongChecksumGivesOneErrorReply :
    let s := parserAt Parser.reset [0xBE, 0xEF, 0x26, 0x02, 0x00, 0x64, 0x8C, 0x03]
    s.cfg.wf = true ∧ s.calls = [] ∧ s.p.st = .sync0 ∧ validLen s.cfg .setTxpwr (lenByte [0x00, 0x64]) = true ∧
      cat 0x8C 0x03 ≠ fletcher s.cfg ([s.cfg.id .setTxpwr, lenByte [0x00, 0x64]] ++ [0x00, 0x64]) ∧
      s.cmdRx = [s.cfg.syncHi, s.cfg.syncLo, s.cfg.id .setTxpwr, lenByte [0x00, 0x64]] ++ [0x00, 0x64] ++
        [0x8C, 0x03] ++ [] ∧
      s.sched = turns (6 + 2) .parser [] := by decide

theorem witness_InvariantAtReset : Config.decided.wf = true ∧ roomy.wf = true := by decide

theorem witness_StepKeepsTheInvariant :
    Inv (parserAt Parser.reset [0xBE]) ∧ (after (parserAt Parser.reset [0xBE])).isSome = true :=
  ⟨inv_fresh test_wf_decided _ rfl rfl rfl rfl, rfl⟩

/-- A buffer with `n` zero bytes from address `a` on. -/
def zeros (a n : Nat) : Memory := (List.range' a n).map fun i => (i, 0)

theorem zeros_get (a n i : Nat) : (zeros a n).get? i = if a ≤ i ∧ i < a + n then some 0 else none := by
  induction n generalizing a with
  | zero => simp [zeros, Memory.get?]
  | succ n ih =>
    have h : zeros a (n + 1) = (a, 0) :: zeros (a + 1) n := rfl
    rw [h, Memory.get?, ih]
    split_ifs <;> first | rfl | omega

theorem zeros_wf (a n : Nat) : (zeros a n).wf = true := by
  induction n generalizing a with
  | zero => rfl
  | succ n ih =>
    cases n with
    | zero => rfl
    | succ n => simpa [zeros, List.range'_succ, Memory.wf] using ih (a + 1)

/-- A decoder whose `KISS_CAP` is 300, before the delimiter that ends a frame with 256 payload bytes. -/
def overlong : State := { decoderAt (kregs (zeros 0 257) 257 false false) [0xC0] with cfg := roomy }

/-- The clause about refusals is met. -/
theorem witness_NoFaultIsReachable : Inv overlong ∧ step overlong = .refused .replyTooLong := by
  refine ⟨⟨by decide, ?_, ?_, rfl⟩, ?_⟩
  · exact (inv_fresh (cfg := roomy) (by decide) { State.reset with cfg := roomy } rfl rfl rfl rfl).parser
  · refine ⟨by decide, by decide, by decide, fun i hi => ?_, zeros_wf 0 257, fun i hi => ?_⟩
    · show ((zeros 0 257).get? i).isSome = true
      have : i < 257 := hi
      simp [zeros_get, this]
    · show i < 300
      have h : ((zeros 0 257).get? i).isSome = true := hi
      rw [zeros_get] at h
      split_ifs at h with hc
      · omega
      · cases h
  · have hl : 255 < (overlong.k.buf.kbufPayload overlong.k.len).length := by
      simp [Memory.kbufPayload, overlong, decoderAt, kregs]
    have h0 : overlong.k.buf.readKbuf 0 = overlong.cfg.kissCmdData := by
      simp only [Memory.readKbuf, overlong, decoderAt, kregs, zeros_get]; rfl
    have hs : overlong.k.esc = false := rfl
    have hk : ¬ overlong.cfg.kissCap < overlong.k.len := by decide
    have he : decodeKissByte overlong.cfg (decide (overlong.k.len = 0)) overlong.k.drop overlong.k.esc 0xC0 = .fendEnd := by
      decide
    rw [step_decoder (b := 0xC0) (bs := []) (ts := []) rfl rfl rfl, he]
    simp only [exec, execFendEnd, hk, h0, hs, ne_eq, not_true_eq_false, if_false, Bool.false_eq_true,
      State.deliverFrame]
    exact State.sendReply_long hl

theorem witness_ConfigurationAndInputsAreImmutable :
    (after (parserAt Parser.reset [0xBE])).isSome = true := rfl

theorem witness_AgentsShareNothing :
    (after (parserAt Parser.reset [0xBE])).isSome = true ∧ (after (decoderAt Kiss.reset [0xC0])).isSome = true ∧
      (after (insideStep [.kencEnd])).isSome = true := ⟨rfl, rfl, rfl⟩

theorem witness_OutputsOnlyGrow : (after (insideStep [.kencEnd])).isSome = true := rfl

end Sys2Proof.Tests
end

section
/-! PROOFS. What no instruction writes: the configuration (R52, R26), the bytes still to be read (R48), the host's schedule
(R50) and the unit operations still to be done. Every proof about what a step leaves of them rests on `exec_given`. -/

namespace Sys2Proof.Machine

/-- The fields of the state that are given to an instruction and that it only reads. -/
structure Given where
  cfg : Config
  cmdRx : List Byte
  kissRx : List Byte
  sched : List Turn
  calls : List Call

/-- Those fields as a state holds them. -/
def State.given (s : State) : Given :=
  { cfg := s.cfg, cmdRx := s.cmdRx, kissRx := s.kissRx, sched := s.sched, calls := s.calls }

variable {s t : State}

theorem State.given_eq_iff :
    t.given = s.given ↔
      t.cfg = s.cfg ∧ t.cmdRx = s.cmdRx ∧ t.kissRx = s.kissRx ∧ t.sched = s.sched ∧ t.calls = s.calls := by
  simp [State.given]

@[simp] theorem State.given_handle (c : Command) (q : List Byte) : (s.handle c q).given = s.given := by
  simp [State.given_eq_iff]

theorem State.append_given {k : Kiss} {v : Byte} (h : s.append k v = .next t) : t.given = s.given := by
  obtain ⟨-, rfl⟩ | ⟨-, rfl⟩ := State.append_next h
  · rfl
  · rfl

theorem State.sendReply_given {c : Byte} {q : List Byte} (h : s.sendReply c q = .next t) : t.given = s.given := by
  obtain ⟨-, rfl⟩ := State.sendReply_next h
  rfl

theorem State.deliverFrame_given {q : List Byte} (h : s.deliverFrame q = .next t) : t.given = s.given :=
  State.sendReply_given (s := (s.setK s.k.clear).setEvent (.rxframe q)) h

theorem State.dispatch_given (h : s.dispatch = .next t) : t.given = s.given := by
  obtain ⟨c, -, -, rfl⟩ := State.dispatch_next h
  exact State.given_handle c _

theorem execSyncHi_given {b : Byte} (h : execSyncHi b s = .next t) : t.given = s.given := by
  cases h
  split_ifs
  · rfl
  · rfl

theorem execLen_given {b : Byte} (h : execLen b s = .next t) : t.given = s.given := by
  unfold execLen at h
  split at h
  · cases h
  · split at h
    · cases h
      rfl
    · cases h
      rfl

theorem execPayload_given {b : Byte} (h : execPayload b s = .next t) : t.given = s.given := by
  unfold execPayload at h
  split at h
  · cases h
    rfl
  · cases h

theorem execChklo_given {b : Byte} (h : execChklo b s = .next t) : t.given = s.given := by
  unfold execChklo at h
  split_ifs at h
  · exact State.dispatch_given h
  · cases h
    rfl

theorem execFendEnd_given (h : execFendEnd s = .next t) : t.given = s.given := by
  unfold execFendEnd at h
  split_ifs at h
  · cases h
    rfl
  · cases h
    rfl
  · exact State.deliverFrame_given h

/-- No instruction writes what it is given: those that test something by their own lemma, those that append or reply by that
of the shared operation, and the rest, which are one update of other fields, at once. -/
theorem exec_given {i : Instr} (h : exec i s = .next t) : t.given = s.given := by
  cases i with
  | syncHi b => exact execSyncHi_given h
  | len b => exact execLen_given h
  | payload b => exact execPayload_given h
  | chklo b => exact execChklo_given h
  | fendEnd => exact execFendEnd_given h
  | tfend => exact State.append_given h
  | tfesc => exact State.append_given h
  | kdata b => exact State.append_given h
  | kissCmdData => exact State.append_given h
  | reply c q => exact State.sendReply_given (s := s.setEvent .none) h
  | rxreply q => exact State.sendReply_given (s := s.setEvent .none) h
  | _ => cases h; rfl

/-- Nor does any sequence of unit operations (R102). -/
theorem runCalls_given {cs : List Call} (h : runCalls cs s = .next t) : t.given = s.given :=
  runCalls_keeps (I := fun u => u.given = s.given) (fun _ _ _ _ ha _ hx => (exec_given hx).trans ha) rfl h

/-- R52, R48: a step keeps the configuration and takes at most the first byte of each input stream. -/
theorem step_keeps_cfg_and_consumes (h : step s = .next t) :
    t.cfg = s.cfg ∧ (t.cmdRx = s.cmdRx ∨ ∃ b, s.cmdRx = b :: t.cmdRx) ∧
      (t.kissRx = s.kissRx ∨ ∃ b, s.kissRx = b :: t.kissRx) := by
  obtain ⟨-, hr⟩ | ⟨-, ⟨-, rfl⟩ | ⟨_, _, -, noCmdByte | noKissByte | outside | parsed | decoded⟩⟩ := step_cases h
  · obtain ⟨hcfg, hcmd, hkiss, -, -⟩ := State.given_eq_iff.mp (runCalls_given hr)
    exact ⟨hcfg, .inl hcmd, .inl hkiss⟩
  · exact ⟨rfl, .inl rfl, .inl rfl⟩
  · obtain ⟨-, -, rfl⟩ := noCmdByte
    exact ⟨rfl, .inl rfl, .inl rfl⟩
  · obtain ⟨-, -, rfl⟩ := noKissByte
    exact ⟨rfl, .inl rfl, .inl rfl⟩
  · obtain ⟨_, -, rfl⟩ := outside
    exact ⟨rfl, .inl rfl, .inl rfl⟩
  · obtain ⟨b, bs, -, hb, hx⟩ := parsed
    obtain ⟨hcfg, hcmd, hkiss, -, -⟩ := State.given_eq_iff.mp (exec_given hx)
    exact ⟨hcfg, .inr ⟨b, by rw [hb, hcmd]⟩, .inl hkiss⟩
  · obtain ⟨b, bs, -, hb, hx⟩ := decoded
    obtain ⟨hcfg, hcmd, hkiss, -, -⟩ := State.given_eq_iff.mp (exec_given hx)
    exact ⟨hcfg, .inl hcmd, .inr ⟨b, by rw [hb, hkiss]⟩⟩

/-- Settles O58: no instruction writes the configuration or an input stream (`exec_given`), and the fetch takes one byte from
the head of one stream. The command table is read from the configuration. -/
theorem configurationAndInputsAreImmutable : Obligations.ConfigurationAndInputsAreImmutable := by
  intro s t h
  obtain ⟨hcfg, hcmd, hkiss⟩ := step_keeps_cfg_and_consumes h
  exact ⟨hcfg, by rw [hcfg], hcmd, hkiss⟩

end Sys2Proof.Machine
end

section
/-! PROOFS. The lengths a command admits (R70, R140): what `VALID_LEN` says of each form of length rule. A command's lengths
then follow from the rule the table gives it. -/

namespace Sys2Proof.Machine

variable {cfg : Config} {c : Command} {l : Byte} {n : Nat}

theorem validLen_iff : validLen cfg c l = true ↔ l.toNat ≤ cfg.maxPayload ∧ LenRule.admits l c.lenRule = true := by
  simp [validLen]

theorem validLen_iff_of_zero (h : c.lenRule = .zero) :
    validLen cfg c l = true ↔ l.toNat ≤ cfg.maxPayload ∧ l.toNat = 0 := by
  simp [validLen_iff, h, LenRule.admits, BitVec.toNat_eq]

theorem validLen_iff_of_exact (h : c.lenRule = .exact n) :
    validLen cfg c l = true ↔ l.toNat ≤ cfg.maxPayload ∧ l.toNat = n := by
  simp [validLen_iff, h, LenRule.admits]

theorem validLen_iff_of_gt0 (h : c.lenRule = .gt0) :
    validLen cfg c l = true ↔ l.toNat ≤ cfg.maxPayload ∧ 0 < l.toNat := by
  simp [validLen_iff, h, LenRule.admits]

/-- The nine commands whose length rule is ZERO (R69). -/
theorem lenRule_eq_zero :
    ∀ c ∈ [Command.nop, .reset, .readTxpwr, .txAbort, .txPsr, .getCfg, .saveCfg, .cfgDefault, .getQueueDepth],
      c.lenRule = .zero := by
  decide

/-- The two commands whose length rule is GT0 (R69). -/
theorem lenRule_eq_gt0 : ∀ c ∈ [Command.txdata, .setCfg], c.lenRule = .gt0 := by
  decide

/-- Settles O5: each command is under one of the three forms of length rule, and `validLen` is known for each form. -/
theorem lengthRulesOfTheCommands : Obligations.LengthRulesOfTheCommands := by
  intro cfg l
  refine ⟨fun c hc => ?zero, ?setTxpwr, ?setFreq, fun c hc => ?gt0⟩
  case zero => exact validLen_iff_of_zero (lenRule_eq_zero c hc)
  case setTxpwr => exact validLen_iff_of_exact rfl
  case setFreq => exact validLen_iff_of_exact rfl
  case gt0 => exact validLen_iff_of_gt0 (lenRule_eq_gt0 c hc)

end Sys2Proof.Machine
end

section
/-! PROOFS. The checksum's seed and its incrementality (R91). -/

namespace Sys2Proof.Machine

theorem fletcher_nil_of_wf {cfg : Config} (h : cfg.wf = true) : fletcher cfg [] = 0 := by
  rw [fletcher_nil, (Config.good_of_wf h).seed_zero]

/-- Settles O36: the empty sequence's checksum is the seed, which a well-formed configuration has at zero; the other two
clauses are the checksum over an appended byte and over an appended sequence. -/
theorem checksumIsAFold : Obligations.ChecksumIsAFold := fun cfg hwf =>
  ⟨fletcher_nil_of_wf hwf, fun s t c => ⟨fletcher_concat cfg s c, fletcher_append cfg s t⟩⟩

end Sys2Proof.Machine
end

section
/-! PROOFS. The escape rule (R101): what `KESC` says of the delimiter, of the escape and of every other byte, and the
encoder's operation on each. -/

namespace Sys2Proof.Machine

variable {cfg : Config} {b : Byte}

@[simp] theorem kesc_fend : kesc cfg cfg.fend = [cfg.fesc, cfg.tfend] := if_pos rfl

/-- The delimiter is tested first, so the escape has a row of its own only where the two differ (R222). -/
theorem kesc_fesc (h : cfg.fend ≠ cfg.fesc) : kesc cfg cfg.fesc = [cfg.fesc, cfg.tfesc] := by
  rw [kesc, if_neg h.symm, if_pos rfl]

theorem kesc_literal (hfend : b ≠ cfg.fend) (hfesc : b ≠ cfg.fesc) : kesc cfg b = [b] := by
  rw [kesc, if_neg hfend, if_neg hfesc]

/-- What an encoder operation leaves behind: its bytes on `KISS_TX`, the event NONE, and the rest of the state as before. -/
theorem State.setEvent_none_emitKiss (s : State) (bs : List Byte) :
    (s.emitKiss bs).setEvent .none = { s with kissTx := s.kissTx ++ bs, event := .none } := rfl

theorem exec_kescFend (s : State) :
    exec .kescFend s = .next ((s.emitKiss (kesc s.cfg s.cfg.fend)).setEvent .none) := rfl

theorem exec_kescFesc (s : State) :
    exec .kescFesc s = .next ((s.emitKiss (kesc s.cfg s.cfg.fesc)).setEvent .none) := rfl

theorem exec_kescLiteral (b : Byte) (s : State) :
    exec (.kescLiteral b) s = .next ((s.emitKiss (kesc s.cfg b)).setEvent .none) := rfl

/-- Settles O39: each operation emits `kesc` of its byte and nothing else, and `kesc` is known on the delimiter, on the
escape, which a well-formed configuration keeps apart from the delimiter, and on every other byte. -/
theorem escapeRule : Obligations.EscapeRule := by
  intro s hwf
  have hne : s.cfg.fend ≠ s.cfg.fesc := (Config.good_of_wf hwf).fend_fesc
  refine ⟨?fend, ?fesc, fun b hfend hfesc => ?literal⟩
  case fend => rw [exec_kescFend, kesc_fend, State.setEvent_none_emitKiss]
  case fesc => rw [exec_kescFesc, kesc_fesc hne, State.setEvent_none_emitKiss]
  case literal => rw [exec_kescLiteral, kesc_literal hfend hfesc, State.setEvent_none_emitKiss]

end Sys2Proof.Machine
end

section
/-! PROOFS. `VALID_CMD` (R139): the valid command bytes are the ids of the one table. -/

namespace Sys2Proof

theorem Config.command?_isSome_iff {cfg : Config} {b : Byte} :
    (cfg.command? b).isSome = true ↔ ∃ c, cfg.id c = b := by
  have hnone : cfg.command? b = none ↔ ¬ ∃ c, cfg.id c = b := Config.command?_eq_none.trans not_exists.symm
  rw [Option.isSome_iff_ne_none, ne_eq, hnone, not_not]

end Sys2Proof

namespace Sys2Proof.Machine

theorem validCmd_eq_isSome (cfg : Config) (b : Byte) : validCmd cfg b = (cfg.command? b).isSome :=
  Config.cmdtab_isSome

/-- Settles O4: validity is the lookup in the table (R4), and the decoder makes the same lookup; what it finds has the byte
as its id. -/
theorem validCommandBytesAreTheTableIds : Obligations.ValidCommandBytesAreTheTableIds := by
  intro cfg b
  rw [validCmd_eq_isSome]
  refine ⟨Config.command?_isSome_iff, fun hvalid => ?valid, fun hinvalid => ?invalid⟩
  case valid =>
    obtain ⟨c, hc⟩ := Option.isSome_iff_exists.mp hvalid
    exact ⟨c, Config.id_of_command? hc, congrArg Except.ok (decodeCmdByte_command hc)⟩
  case invalid =>
    have hnone : cfg.command? b = none := Option.isNone_iff_eq_none.mp (Option.isSome_eq_false_iff.mp hinvalid)
    exact congrArg Except.ok (decodeCmdByte_invalid hnone)

end Sys2Proof.Machine
end

section
/-! PROOFS. The parser's instructions that only move on (R131, R132, R135, R136): what each sync byte does to the parser
state, where a payload byte is stored, and the first half of the received checksum. -/

namespace Sys2Proof.Machine

variable {b : Byte} {s : State}

/-! ## The sync bytes -/

/-- What a byte that only moves the parser leaves behind. -/
theorem State.setEvent_none_setSt (s : State) (st : ParserState) :
    (s.setSt st).setEvent .none = { s with p := { s.p with st := st }, event := .none } := rfl

theorem exec_syncHi_of_eq (h : b = s.cfg.syncHi) :
    exec (.syncHi b) s = .next ((s.setSt .sync1).setEvent .none) := by
  simp only [exec, execSyncHi, if_pos h]

theorem exec_syncHi_of_ne (h : b ≠ s.cfg.syncHi) : exec (.syncHi b) s = .next (s.setEvent .none) := by
  simp only [exec, execSyncHi, if_neg h]

theorem exec_syncLo (b : Byte) (s : State) :
    exec (.syncLo b) s =
      .next ((s.setSt (if b = s.cfg.syncLo then .cmd else if b = s.cfg.syncHi then .sync1 else .sync0)).setEvent
        .none) := rfl

theorem decodeCmdByte_sync1_of_eq {cfg : Config} (h : b = cfg.syncHi) :
    decodeCmdByte cfg b .sync1 = .syncHi b := if_pos h

theorem decodeCmdByte_sync1_of_ne {cfg : Config} (h : b ≠ cfg.syncHi) :
    decodeCmdByte cfg b .sync1 = .syncLo b := if_neg h

/-- In `SYNC1` the row `SYNC_HI` on the first sync byte and the row `SYNC_LO` on it agree, the sync bytes being distinct: so
the byte as decoded there does what `SYNC_LO` does. -/
theorem exec_decodeCmdByte_sync1 (hne : s.cfg.syncHi ≠ s.cfg.syncLo) (b : Byte) :
    exec (decodeCmdByte s.cfg b .sync1) s = exec (.syncLo b) s := by
  by_cases hb : b = s.cfg.syncHi
  · have hlo : b ≠ s.cfg.syncLo := hb ▸ hne
    rw [decodeCmdByte_sync1_of_eq hb, exec_syncHi_of_eq hb, exec_syncLo, if_neg hlo, if_pos hb]
  · rw [decodeCmdByte_sync1_of_ne hb]

/-- Settles O10: the first sync byte moves the parser; any other leaves it in the state it is in, which is `SYNC0`. -/
theorem firstSyncByteRule : Obligations.FirstSyncByteRule := by
  intro s b hst
  by_cases hb : b = s.cfg.syncHi
  · rw [exec_syncHi_of_eq hb, State.setEvent_none_setSt, if_pos hb]
  · rw [exec_syncHi_of_ne hb, if_neg hb, ← hst]
    rfl

/-- Settles O11: the byte as decoded in `SYNC1` does what the row `SYNC_LO` does (`exec_decodeCmdByte_sync1`), and that row
is the rule. -/
theorem secondSyncByteRule : Obligations.SecondSyncByteRule := by
  intro s b i hne _ hi
  have hrow : exec i s = exec (.syncLo b) s := by
    obtain hdecoded | rfl := hi
    · obtain rfl : decodeCmdByte s.cfg b .sync1 = i := Except.ok.inj hdecoded
      exact exec_decodeCmdByte_sync1 hne b
    · rfl
  rw [hrow, exec_syncLo, State.setEvent_none_setSt]

/-! ## The payload and the received checksum -/

theorem exec_payload_of_lt (h : s.p.idx.toNat < s.cfg.maxPayload) :
    exec (.payload b) s =
      .next { s with
        p := { s.p with buf := s.p.buf.write s.p.idx.toNat b, computed := fStep s.cfg s.p.computed b,
                        idx := s.p.idx + 1, st := if s.p.idx + 1 = s.p.len then .chkHi else s.p.st },
        event := .none } := by
  simp only [exec, execPayload, if_pos h, State.setP, State.setEvent]

theorem exec_chkhi (b : Byte) (s : State) :
    exec (.chkhi b) s = .next { s with p := { s.p with rx := cat b (lo s.p.rx), st := .chkLo }, event := .none } := rfl

/-- Settles O14: the new buffer is the old one written at the counter, which reads back the byte there and the old bytes
elsewhere. -/
theorem payloadByteRule : Obligations.PayloadByteRule := by
  intro s b hidx hst
  refine ⟨s.p.buf.write s.p.idx.toNat b, ?run, Memory.readPbuf_write_self, fun a ha => Memory.readPbuf_write_ne ha.symm⟩
  case run => rw [exec_payload_of_lt hidx, hst]

/-- Settles O15: the received checksum becomes the concatenation of the byte and its old low half, whose halves are these
two. -/
theorem highChecksumByteRule : Obligations.HighChecksumByteRule := fun s b =>
  ⟨cat b (lo s.p.rx), hi_cat b _, lo_cat b _, exec_chkhi b s⟩

end Sys2Proof.Machine
end

section
/-! PROOFS. The Reply Encoder (R180 to R182): the bytes of each kind of reply, and that its operation appends them to `CMD_TX`
and does nothing else. -/

namespace Sys2Proof.Machine

/-! ## The covered bytes -/

theorem replyBody_eq (cfg : Config) (st c : Byte) (q : List Byte) :
    replyBody cfg st c q =
      (if cfg.hasStatus then [st] else []) ++ [c ||| cfg.replyBit, BitVec.ofNat 8 q.length] ++ q := rfl

/-- The covered bytes of an error reply (R93, R181). -/
def errReplyBody (cfg : Config) (st e : Byte) : List Byte :=
  (if cfg.hasStatus then [st] else []) ++ [cfg.errReplyCmd, 1#8, e]

theorem errReplyFrame_eq_framed (cfg : Config) (st e : Byte) :
    errReplyFrame cfg st e = framed cfg (errReplyBody cfg st e) := rfl

/-! ## The operations -/

variable {s : State} {q : List Byte}

/-- What a reply operation leaves behind: its bytes on `CMD_TX`, the event NONE, and the rest of the state as before. -/
theorem State.setEvent_none_emitCmd (s : State) (bs : List Byte) :
    (s.emitCmd bs).setEvent .none = { s with cmdTx := s.cmdTx ++ bs, event := .none } := rfl

/-- A reply that a `LEN` byte can count, sent once the event is NONE. -/
theorem State.sendReply_setEvent_none (c : Byte) (h : q.length ≤ 255) :
    (s.setEvent .none).sendReply c q =
      .next ((s.emitCmd (replyFrame s.cfg s.env.status c q)).setEvent .none) :=
  State.sendReply_short h

theorem exec_reply_of_le (c : BitVec 7) (h : q.length ≤ 255) :
    exec (.reply c q) s =
      .next ((s.emitCmd (replyFrame s.cfg s.env.status (c.setWidth 8) q)).setEvent .none) :=
  State.sendReply_setEvent_none (c.setWidth 8) h

theorem exec_rxreply_of_le (h : q.length ≤ 255) :
    exec (.rxreply q) s =
      .next ((s.emitCmd (replyFrame s.cfg s.env.status s.cfg.idRxdata q)).setEvent .none) :=
  State.sendReply_setEvent_none s.cfg.idRxdata h

theorem exec_errreply (e : Byte) (s : State) :
    exec (.errreply e) s = .next ((s.emitCmd (errReplyFrame s.cfg s.env.status e)).setEvent .none) := rfl

/-- Settles O28: the body is `replyBody` of the current `STATUS` and the id, and the operation emits it `framed`. -/
theorem replyRule : Obligations.ReplyRule := by
  intro s c q hq
  refine ⟨replyBody s.cfg s.env.status (c.setWidth 8) q, replyBody_eq _ _ _ _, ?run⟩
  case run => rw [exec_reply_of_le c hq, State.setEvent_none_emitCmd, replyFrame, framed]

/-- Settles O29: the body is `errReplyBody` of the current `STATUS` and the code, and the operation emits it `framed`. -/
theorem errorReplyRule : Obligations.ErrorReplyRule := by
  intro s e
  refine ⟨errReplyBody s.cfg s.env.status e, rfl, ?run⟩
  case run => rw [exec_errreply, State.setEvent_none_emitCmd, errReplyFrame_eq_framed, framed]

/-- Settles O30: the operation sends the success reply to `ID_RXDATA`, whose payload a `LEN` byte can count. -/
theorem receivedDataReplyRule : Obligations.ReceivedDataReplyRule := by
  intro s q hq
  rw [exec_rxreply_of_le hq, State.setEvent_none_emitCmd]

end Sys2Proof.Machine
end

section
/-! PROOFS. The two exceptions that are no error reply: a validated id without a handler stops the run (R175, R199), and a
KISS decode error drops its frame in silence (R119, R197). -/

namespace Sys2Proof.Machine

variable {s t : State} {b : Byte}

/-! ## The low checksum byte at an unlisted id -/

theorem exec_chklo_of_eq (h : cat (hi s.p.rx) b = s.p.computed) : exec (.chklo b) s = s.dispatch := if_pos h

theorem State.dispatch_unlisted (h : s.cfg.command? s.p.cmd = none) : s.dispatch = .fault .unlistedCommand := by
  simp only [State.dispatch, h]

/-- Settles O19: a matching checksum leads to the dispatch, which finds no command to hand the frame to. -/
theorem validatedIdWithoutHandlerFaults : Obligations.ValidatedIdWithoutHandlerFaults := by
  intro s b hid hsum
  rw [exec_chklo_of_eq hsum, State.dispatch_unlisted hid]

/-! ## What a decode error leaves -/

variable {r : KissError}

/-- The reason in the event is the reason the error was reported with. -/
theorem State.eq_kissError {k : Kiss} {q : KissError}
    (h : (.next (s.kissError k q) : Host.Outcome State Fault Refusal) = .next t) (he : t.event = .kerr r) :
    t = s.kissError k r := by
  cases h
  obtain rfl : q = r := Event.kerr.inj he
  rfl

/-- An append that ends in a decode error is the one that finds the buffer full (R117). -/
theorem State.append_kerr {k : Kiss} {v : Byte} (h : s.append k v = .next t) (he : t.event = .kerr r) :
    t = s.kissError k.fail r := by
  obtain ⟨-, rfl⟩ | ⟨-, rfl⟩ := State.append_next h
  · exact State.eq_kissError rfl he
  · cases he

/-- A delivery ends with the frame it delivers (R118). -/
theorem State.deliverFrame_event {q : List Byte} (h : s.deliverFrame q = .next t) : t.event = .rxframe q := by
  obtain ⟨-, rfl⟩ := State.sendReply_next h
  rfl

/-- The delimiter that ends in a decode error has cleared the buffer and both flags (R112). -/
theorem execFendEnd_kerr (h : execFendEnd s = .next t) (he : t.event = .kerr r) : t = s.kissError s.k.clear r := by
  unfold execFendEnd at h
  split_ifs at h with hcap hesc hcmd
  · exact State.eq_kissError h he
  · exact State.eq_kissError h he
  · rw [State.deliverFrame_event h] at he
    cases he

/-- A byte of `KISS_RX` in its place that ends in a decode error writes nothing but `K` and the event, and `K` is left with an
empty buffer and no escape pending. A literal byte leaves the escape flag alone, but it is read as one only where none is
pending; an escaped byte clears it first. -/
theorem exec_decodeKissByte_kerr {empty : Bool}
    (h : exec (decodeKissByte s.cfg empty s.k.drop s.k.esc b) s = .next t) (he : t.event = .kerr r) :
    ∃ k : Kiss, k.len = 0 ∧ k.esc = false ∧ t = s.kissError k r := by
  unfold decodeKissByte at h
  split_ifs at h with hfend hempty hdrop hesc htfend htfesc hfesc hdata
  · -- padding delimiter
    cases h
    cases he
  · -- end of frame
    exact ⟨s.k.clear, rfl, rfl, execFendEnd_kerr h he⟩
  · -- discarding
    cases h
    cases he
  · -- transposed delimiter
    exact ⟨(s.k.setEsc false).fail, rfl, rfl, State.append_kerr h he⟩
  · -- transposed escape
    exact ⟨(s.k.setEsc false).fail, rfl, rfl, State.append_kerr h he⟩
  · -- unrecognised transposed code
    exact ⟨(s.k.setEsc false).fail, rfl, rfl, State.eq_kissError h he⟩
  · -- escape
    cases h
    cases he
  · -- the command byte at the head of a frame
    exact ⟨s.k.fail, rfl, Bool.eq_false_of_not_eq_true hesc, State.append_kerr h he⟩
  · -- literal byte
    exact ⟨s.k.fail, rfl, Bool.eq_false_of_not_eq_true hesc, State.append_kerr h he⟩

/-- Settles O48: the turn runs its byte in the state with the byte taken, and an error there is `kissError`, which writes only
`K` and the event. -/
theorem kissErrorsAreSilent : Obligations.KissErrorsAreSilent := by
  intro s t b bs ts r hcalls hsched hrx hstep hevent
  rw [step_decoder hcalls hsched hrx] at hstep
  obtain ⟨k, hlen, hesc, rfl⟩ :=
    exec_decodeKissByte_kerr (s := { s with sched := ts, kissRx := bs }) hstep hevent
  exact ⟨rfl, rfl, rfl, rfl, rfl, rfl, hlen, hesc⟩

end Sys2Proof.Machine
end

section
/-! PROOFS. Decoder and encoder agree (30_encoding.md): in both directions the only rows with something to say are the command
bytes, where the table gives each id to one command, and the replies, where the command byte is the id with bit 7 set. -/

namespace Sys2Proof

/-! ## The reply bit -/

section ReplyBit

variable {x y : Byte} {c : BitVec 7} {i : Nat}

theorem getLsbD_replyBit : (0x80#8).getLsbD i = decide (i = 7) := by
  rw [show (0x80#8) = BitVec.twoPow 8 7 from rfl, BitVec.getLsbD_twoPow]
  simp [eq_comm]

theorem getLsbD_or_replyBit : (x ||| 0x80#8).getLsbD i = (x.getLsbD i || decide (i = 7)) := by
  rw [BitVec.getLsbD_or, getLsbD_replyBit]

/-- The reply bit tests bit 7 (R64). -/
theorem and_replyBit_ne_zero_iff : x &&& 0x80#8 ≠ 0 ↔ x.getLsbD 7 = true := by
  constructor
  · intro h
    by_contra h7
    refine h (BitVec.eq_of_getLsbD_eq fun i _ => ?_)
    rw [BitVec.getLsbD_and, getLsbD_replyBit]
    by_cases hi : i = 7 <;> simp_all
  · intro h7 h
    have hbit : (x &&& 0x80#8).getLsbD 7 = true := by rw [BitVec.getLsbD_and, getLsbD_replyBit, h7]; rfl
    rw [h] at hbit
    cases hbit

/-- A byte with the reply bit added is no request. -/
theorem or_replyBit_and_ne_zero : (x ||| 0x80#8) &&& 0x80#8 ≠ 0 :=
  and_replyBit_ne_zero_iff.mpr (by simp)

/-- Ids have bit 7 clear, so the reply bit keeps them apart. -/
theorem or_replyBit_inj (hx : x.getLsbD 7 = false) (hy : y.getLsbD 7 = false) (h : x ||| 0x80#8 = y ||| 0x80#8) :
    x = y := by
  refine BitVec.eq_of_getLsbD_eq fun i _ => ?_
  have hi := congrArg (BitVec.getLsbD · i) h
  simp only [getLsbD_or_replyBit] at hi
  by_cases hi7 : i = 7
  · rw [hi7, hx, hy]
  · simpa [hi7] using hi

theorem getLsbD_setWidth_seven : (c.setWidth 8).getLsbD 7 = false := by simp

/-- The id of a reply is read back from its command byte. -/
theorem setWidth_or_replyBit : (c.setWidth 8 ||| 0x80#8).setWidth 7 = c := by
  refine BitVec.eq_of_getLsbD_eq fun i hi => ?_
  have hi7 : i ≠ 7 := by omega
  rw [BitVec.getLsbD_setWidth, getLsbD_or_replyBit, BitVec.getLsbD_setWidth]
  simp [hi7, hi]
  omega

theorem or_replyBit_setWidth (h : x.getLsbD 7 = true) : (x.setWidth 7).setWidth 8 ||| 0x80#8 = x := by
  refine BitVec.eq_of_getLsbD_eq fun i hi => ?_
  rw [getLsbD_or_replyBit]
  by_cases hi7 : i = 7
  · simp [hi7, h]
  · have : i < 7 := by omega
    simp [hi7, hi, this]

end ReplyBit

variable {cfg : Config} {b : Byte} {q : List Byte}

/-! ## A reply's command byte selects its row -/

theorem decodeCall_errreply (g : cfg.Good) (e : Byte) :
    decodeCall cfg (.reply cfg.errReplyCmd [e]) = .ok (.errreply e) := by
  have hbit : cfg.errReplyCmd &&& cfg.replyBit ≠ 0 := by
    rw [g.reply_bit]
    exact and_replyBit_ne_zero_iff.mpr g.err_bit7
  simp only [decodeCall, if_neg hbit, if_pos]

theorem decodeCall_rxreply (g : cfg.Good) (herr : cfg.idRxdata ||| cfg.replyBit ≠ cfg.errReplyCmd) (hq : q.length ≤ 255) :
    decodeCall cfg (.reply (cfg.idRxdata ||| cfg.replyBit) q) = .ok (.rxreply q) := by
  have hbit : (cfg.idRxdata ||| cfg.replyBit) &&& cfg.replyBit ≠ 0 := g.reply_bit ▸ or_replyBit_and_ne_zero
  simp only [decodeCall, if_neg hbit, if_neg herr, if_neg (Nat.not_lt.mpr hq), if_pos]

theorem decodeCall_reply (g : cfg.Good) {c : BitVec 7} (herr : c.setWidth 8 ||| cfg.replyBit ≠ cfg.errReplyCmd)
    (hrx : c.setWidth 8 ≠ cfg.idRxdata) (hq : q.length ≤ 255) :
    decodeCall cfg (.reply (c.setWidth 8 ||| cfg.replyBit) q) = .ok (.reply c q) := by
  have hbit : (c.setWidth 8 ||| cfg.replyBit) &&& cfg.replyBit ≠ 0 := g.reply_bit ▸ or_replyBit_and_ne_zero
  have hrow : c.setWidth 8 ||| cfg.replyBit ≠ cfg.idRxdata ||| cfg.replyBit := by
    rw [g.reply_bit]
    exact fun h => hrx (or_replyBit_inj getLsbD_setWidth_seven g.rx_bit7 h)
  have hid : (c.setWidth 8 ||| cfg.replyBit).setWidth 7 = c := by rw [g.reply_bit, setWidth_or_replyBit]
  simp only [decodeCall, if_neg hbit, if_neg herr, if_neg (Nat.not_lt.mpr hq), if_neg hrow, hid]

/-- What the decoder reads from a reply: a byte with bit 7 set, which is the error command byte with one operand, that of
`ID_RXDATA`, or that of another id; and a payload a `LEN` byte can count in the last two. -/
theorem decodeCall_reply_ok {c : Byte} {i : Instr} (h : decodeCall cfg (.reply c q) = .ok i) :
    c &&& cfg.replyBit ≠ 0 ∧
    ((c = cfg.errReplyCmd ∧ ∃ e, q = [e] ∧ i = .errreply e) ∨
     (c ≠ cfg.errReplyCmd ∧ q.length ≤ 255 ∧
      ((c = cfg.idRxdata ||| cfg.replyBit ∧ i = .rxreply q) ∨
       (c ≠ cfg.idRxdata ||| cfg.replyBit ∧ i = .reply (c.setWidth 7) q)))) := by
  simp only [decodeCall] at h
  split_ifs at h with hbit herr hlen hrx
  · refine ⟨hbit, .inl ⟨herr, ?_⟩⟩
    split at h
    · rename_i e
      exact ⟨e, rfl, (Except.ok.inj h).symm⟩
    · cases h
  · exact ⟨hbit, .inr ⟨herr, by omega, .inl ⟨hrx, (Except.ok.inj h).symm⟩⟩⟩
  · exact ⟨hbit, .inr ⟨herr, by omega, .inr ⟨hrx, (Except.ok.inj h).symm⟩⟩⟩

/-! ## Decoding the encoding -/

theorem decode_command (g : cfg.Good) (c : Command) : decode cfg (.cmdByte .cmd (cfg.id c)) = .ok c.instr :=
  congrArg Except.ok (decodeCmdByte_command (g.command?_id c))

/-- Settles O2: the thirteen command bytes by the table, a reply by its command byte, and every other row by the tests of its
place, which a well-formed configuration and the row's own exclusions decide. -/
theorem decodeOfEncodeIsIdentity : Obligations.DecodeOfEncodeIsIdentity := by
  intro cfg i hwf hi
  have g := Config.good_of_wf hwf
  cases i with
  | nop => exact decode_command g .nop
  | reset => exact decode_command g .reset
  | txdata => exact decode_command g .txdata
  | txAbort => exact decode_command g .txAbort
  | txPsr => exact decode_command g .txPsr
  | getCfg => exact decode_command g .getCfg
  | setCfg => exact decode_command g .setCfg
  | saveCfg => exact decode_command g .saveCfg
  | cfgDefault => exact decode_command g .cfgDefault
  | setFreq => exact decode_command g .setFreq
  | getQueueDepth => exact decode_command g .getQueueDepth
  | readTxpwr => exact decode_command g .readTxpwr
  | setTxpwr => exact decode_command g .setTxpwr
  | invalidCmd b => exact congrArg Except.ok (decodeCmdByte_invalid (Option.isNone_iff_eq_none.mp hi))
  | syncLo b => 
    have hb : b ≠ cfg.syncHi := by simpa [Instr.wf] using hi
    exact congrArg Except.ok (if_neg hb)
  | errreply e => exact decodeCall_errreply g e
  | rxreply q =>
    obtain ⟨herr, hq⟩ : cfg.idRxdata ||| cfg.replyBit ≠ cfg.errReplyCmd ∧ q.length ≤ 255 := by simpa [Instr.wf] using hi
    exact decodeCall_rxreply g herr hq
  | reply c q => 
    obtain ⟨herr, hrx, hq⟩ : c.setWidth 8 ||| cfg.replyBit ≠ cfg.errReplyCmd ∧ c.setWidth 8 ≠ cfg.idRxdata ∧
      q.length ≤ 255 := by simpa [Instr.wf] using hi
    exact decodeCall_reply g herr hrx hq
  | kdrop b | badTransposed b | kdata b | kescLiteral b =>
    simp_all [Instr.wf, encode, decode, decodeKissByte, decodeCall]
  | fendPad | fendEnd | kencOpen | kescFend | kencClose => simp [encode, decode, decodeKissByte, decodeCall]
  | tfend => simp [encode, decode, decodeKissByte, g.fend_tfend.symm]
  | tfesc => simp [encode, decode, decodeKissByte, g.fend_tfesc.symm, g.tfend_tfesc.symm]
  | fesc => simp [encode, decode, decodeKissByte, g.fend_fesc.symm]
  | kissCmdData => simp [encode, decode, decodeKissByte, g.data_fend, g.data_fesc]
  | kescFesc => simp [encode, decode, decodeCall, g.fend_fesc.symm]
  | syncHi b => rfl
  | len b => rfl
  | payload b => rfl
  | chkhi b => rfl
  | chklo b => rfl
  | f acc c => rfl

/-! ## Encoding what was decoded -/

/-- A command's instruction is well formed and shows its id. -/
theorem Command.instr_wf_bytes (cfg : Config) (c : Command) :
    c.instr.wf cfg = true ∧ (encode cfg c.instr).bytes = [cfg.id c] := by
  cases c <;> exact ⟨rfl, rfl⟩

theorem decodeCmdByte_wf_bytes (cfg : Config) (b : Byte) (st : ParserState) :
    (decodeCmdByte cfg b st).wf cfg = true ∧ (encode cfg (decodeCmdByte cfg b st)).bytes = [b] := by
  cases st with
  | sync1 =>
    by_cases hb : b = cfg.syncHi
    · simp [decodeCmdByte, hb, Instr.wf, encode, Fetch.bytes]
    · simp [decodeCmdByte, hb, Instr.wf, encode, Fetch.bytes]
  | cmd =>
    cases hc : cfg.command? b with
    | none =>
      rw [decodeCmdByte_invalid hc]
      exact ⟨by rw [Instr.wf, hc]; rfl, rfl⟩
    | some c =>
      rw [decodeCmdByte_command hc, ← Config.id_of_command? hc]
      exact c.instr_wf_bytes cfg
  | sync0 => exact ⟨rfl, rfl⟩
  | len => exact ⟨rfl, rfl⟩
  | payload => exact ⟨rfl, rfl⟩
  | chkHi => exact ⟨rfl, rfl⟩
  | chkLo => exact ⟨rfl, rfl⟩

theorem decodeKissByte_wf_bytes (cfg : Config) (empty drop esc : Bool) (b : Byte) :
    (decodeKissByte cfg empty drop esc b).wf cfg = true ∧
      (encode cfg (decodeKissByte cfg empty drop esc b)).bytes = [b] := by
  unfold decodeKissByte
  split_ifs <;> simp_all [Instr.wf, encode, Fetch.bytes]

theorem decodeCall_wf_bytes (g : cfg.Good) {c : Call} {i : Instr} (h : decodeCall cfg c = .ok i) :
    i.wf cfg = true ∧ (encode cfg i).bytes = (Fetch.call c).bytes := by
  cases c with
  | reply c q =>
    obtain ⟨hbit, ⟨rfl, e, rfl, rfl⟩ | ⟨herr, hq, ⟨rfl, rfl⟩ | ⟨hrx, rfl⟩⟩⟩ := decodeCall_reply_ok h
    · exact ⟨rfl, rfl⟩
    · exact ⟨by simp [Instr.wf, herr, hq], rfl⟩
    · have hc : (c.setWidth 7).setWidth 8 ||| cfg.replyBit = c := by
        rw [g.reply_bit] at hbit ⊢
        exact or_replyBit_setWidth (and_replyBit_ne_zero_iff.mp hbit)
      have hid : (c.setWidth 7).setWidth 8 ≠ cfg.idRxdata := fun e => hrx (by rw [← e, hc])
      simp only [Instr.wf, encode, Fetch.bytes, hc]
      exact ⟨by simp [herr, hid, hq], trivial⟩
  | kencByte b =>
    obtain rfl := Except.ok.inj h
    split_ifs <;> simp_all [Instr.wf, encode, Fetch.bytes]
  | kencStart => cases h; exact ⟨rfl, rfl⟩
  | kencEnd => cases h; exact ⟨rfl, rfl⟩
  | engine acc c => cases h; exact ⟨rfl, rfl⟩

/-- Settles O3: a byte of either stream is the one byte its row shows, and a unit operation shows its own. -/
theorem decodedIsWellFormedAndKeepsItsBytes : Obligations.DecodedIsWellFormedAndKeepsItsBytes := by
  intro cfg f i hwf h
  cases f with
  | cmdByte st b =>
    obtain rfl := Except.ok.inj h
    exact decodeCmdByte_wf_bytes cfg b st
  | kissByte empty drop esc b =>
    obtain rfl := Except.ok.inj h
    exact decodeKissByte_wf_bytes cfg empty drop esc b
  | call c => exact decodeCall_wf_bytes (Config.good_of_wf hwf) h

end Sys2Proof
end

section
/-! PROOFS. What one step is: a quiet move, the decoded byte of a turn, or the operations a step in progress still asks for. -/

namespace Sys2Proof.Machine

variable {s t : State} {ts : List Turn}

/-! ## Quiet moves -/

theorem step_quiet (hc : s.calls = []) (h : s.fetch = .quiet t) : step s = .next t := by
  simp only [step_between hc, h]

theorem step_idle (hc : s.calls = []) (h : s.sched = []) : step s = .next s := step_quiet hc (State.fetch_idle h)

/-- R48: a parser turn without a byte waiting. -/
theorem step_parser_empty (hc : s.calls = []) (h : s.sched = .parser :: ts) (hb : s.cmdRx = []) :
    step s = .next { s with sched := ts } := step_quiet hc (by simp only [State.fetch, h, hb])

/-- R48: a decoder turn without a byte waiting. -/
theorem step_decoder_empty (hc : s.calls = []) (h : s.sched = .decoder :: ts) (hb : s.kissRx = []) :
    step s = .next { s with sched := ts } := step_quiet hc (by simp only [State.fetch, h, hb])

theorem step_outside {e : Env} (hc : s.calls = []) (h : s.sched = .outside e :: ts) :
    step s = .next { s with sched := ts, env := e } := step_quiet hc (by simp only [State.fetch, h])

/-- Settles O7: the fetch of each of these moves is quiet, and a quiet move is all the step does. -/
theorem quietMovesChangeNothingElse : Obligations.QuietMovesChangeNothingElse := fun _ _ hc =>
  ⟨step_idle hc, step_parser_empty hc, step_decoder_empty hc, fun _ => step_outside hc⟩

/-! ## The decoded instruction -/

/-- Settles O6: a turn's byte by `step_parser` and `step_decoder`, one unit operation by `runCalls_single`, and the first of
several by `runCalls_cons`. -/
theorem stepRunsTheDecodedInstruction : Obligations.StepRunsTheDecodedInstruction := by
  intro s i
  refine ⟨fun b bs ts hc hs hb hi => ?parser, fun b bs ts hc hs hb hi => ?decoder, fun c hc hi => ?single,
    fun c cs t hc hi hx => ?several⟩
  case parser =>
    obtain rfl := Except.ok.inj hi
    exact step_parser hc hs hb
  case decoder =>
    obtain rfl := Except.ok.inj hi
    exact step_decoder hc hs hb
  case single =>
    rw [step_inside (by rw [hc]; nofun), hc]
    exact runCalls_single hi
  case several =>
    rw [step_inside (by rw [hc]; nofun), hc]
    exact runCalls_cons hi hx

end Sys2Proof.Machine
end

section
/-! PROOFS. A decoder turn is `KDEC_STEP` (R110 to R118): what the byte in its place does is `kdecStep` with the reply of a
delivered frame, or one of the two stops. Everything about decoder turns rests on `exec_decodeKissByte`. -/

namespace Sys2Proof.Machine

/-- What an event of the decoder puts on `CMD_TX`: the RX-data reply of a delivered frame (R118). -/
def rxBytes (cfg : Config) (st : Byte) : Event → List Byte
  | .rxframe q => rxReplyFrame cfg st q
  | _ => []

/-- The state after a decoder step with the given `K` and event. -/
def State.decoded (s : State) (r : Kiss × Event) : State :=
  { s with k := r.1, event := r.2, cmdTx := s.cmdTx ++ rxBytes s.cfg s.env.status r.2 }

variable {s t : State} {k : Kiss} {b : Byte}

theorem State.decoded_none : s.decoded (k, .none) = (s.setK k).setEvent .none := by
  simp [State.decoded, rxBytes, State.setK, State.setEvent]

theorem State.decoded_kerr {r : KissError} : s.decoded (k, .kerr r) = s.kissError k r := by
  simp [State.decoded, rxBytes, State.kissError, State.setK, State.setEvent]

/-- `APPEND` within the capacity is `kissAppend` (R117). -/
theorem State.append_eq_decoded {v : Byte} (h : k.len ≤ s.cfg.kissCap) :
    s.append k v = .next (s.decoded (kissAppend s.cfg k v)) := by
  obtain hlt | heq := Nat.lt_or_eq_of_le h
  · rw [State.append_room hlt, kissAppend, if_neg (Nat.ne_of_lt hlt), State.decoded_none]
  · rw [State.append_full heq, kissAppend, if_pos heq, State.decoded_kerr]
    rfl

theorem State.append_eq_decoded_or_fault (s : State) (k : Kiss) (v : Byte) :
    s.append k v = .next (s.decoded (kissAppend s.cfg k v)) ∨
      (s.cfg.kissCap < k.len ∧ s.append k v = .fault .kbufIndex) := by
  obtain h | h := Nat.lt_or_ge s.cfg.kissCap k.len
  · exact .inr ⟨h, State.append_beyond h⟩
  · exact .inl (State.append_eq_decoded h)

/-- A delivery sends the RX-data reply, or is refused for a payload no `LEN` byte can count (R118). -/
theorem State.deliverFrame_eq_decoded {q : List Byte} (h : q.length ≤ 255) :
    s.deliverFrame q = .next (s.decoded (s.k.clear, .rxframe q)) :=
  State.sendReply_short h

theorem State.deliverFrame_long {q : List Byte} (h : 255 < q.length) : s.deliverFrame q = .refused .replyTooLong :=
  State.sendReply_long h

/-- The end of a frame (R112, R118). -/
theorem execFendEnd_eq (h : s.k.len ≤ s.cfg.kissCap) :
    execFendEnd s =
      if s.k.esc then .next (s.kissError s.k.clear .danglingEsc)
      else if s.k.buf.readKbuf 0 ≠ s.cfg.kissCmdData then .next (s.kissError s.k.clear .badCmd)
      else s.deliverFrame (s.k.buf.kbufPayload s.k.len) := by
  rw [execFendEnd, if_neg (Nat.not_lt.mpr h)]

theorem execFendEnd_beyond (h : s.cfg.kissCap < s.k.len) : execFendEnd s = .fault .kbufIndex := by
  rw [execFendEnd, if_pos h]

/-- `KDEC_STEP` on a padding delimiter (R111). -/
theorem kdecStep_padding {cfg : Config} (h : k.len = 0) : kdecStep cfg k cfg.fend = (k.clearFlags, .none) := by
  rw [kdecStep, if_pos ⟨rfl, h⟩]
  rfl

/-- `KDEC_STEP` on the delimiter of a frame in progress (R112). -/
theorem kdecStep_fend {cfg : Config} (h : k.len ≠ 0) :
    kdecStep cfg k cfg.fend =
      (k.clear, if k.esc then .kerr .danglingEsc
        else if k.buf.readKbuf 0 ≠ cfg.kissCmdData then .kerr .badCmd
        else .rxframe (k.buf.kbufPayload k.len)) := by
  simp only [kdecStep, h, and_false, if_false, if_true]
  rfl

/-- `KDEC_STEP` on every other byte: its tests in R110's order. -/
theorem kdecStep_of_ne_fend {cfg : Config} (h : b ≠ cfg.fend) :
    kdecStep cfg k b =
      if k.drop then (k, .none)
      else if k.esc then
        if b = cfg.tfend then kissAppend cfg (k.setEsc false) cfg.fend
        else if b = cfg.tfesc then kissAppend cfg (k.setEsc false) cfg.fesc
        else ((k.setEsc false).fail, .kerr .badEsc)
      else if b = cfg.fesc then (k.setEsc true, .none)
      else kissAppend cfg k b := by
  simp only [kdecStep, h, false_and, if_false]
  rfl

/-- What the end of a frame does is `KDEC_STEP`, but for a length beyond the capacity and an overlong delivery. -/
theorem execFendEnd_cases (h0 : s.k.len ≠ 0) :
    execFendEnd s = .next (s.decoded (kdecStep s.cfg s.k s.cfg.fend)) ∨
    (s.cfg.kissCap < s.k.len ∧ execFendEnd s = .fault .kbufIndex) ∨
    (256 < s.k.len ∧ s.k.len ≤ s.cfg.kissCap ∧ execFendEnd s = .refused .replyTooLong) := by
  obtain hcap | hcap := Nat.lt_or_ge s.cfg.kissCap s.k.len
  · exact .inr (.inl ⟨hcap, execFendEnd_beyond hcap⟩)
  rw [execFendEnd_eq hcap, kdecStep_fend h0]
  split_ifs with hesc hcmd
  · exact .inl (by rw [State.decoded_kerr])
  · exact .inl (by rw [State.decoded_kerr])
  · obtain hlen | hlen := Nat.lt_or_ge 255 (s.k.buf.kbufPayload s.k.len).length
    · refine .inr (.inr ⟨?_, hcap, State.deliverFrame_long hlen⟩)
      rw [Memory.length_kbufPayload] at hlen
      omega
    · exact .inl (State.deliverFrame_eq_decoded hlen)

theorem decodeKissByte_of_ne_fend {cfg : Config} {empty drop esc : Bool} (h : b ≠ cfg.fend) :
    decodeKissByte cfg empty drop esc b =
      if drop then .kdrop b
      else if esc then if b = cfg.tfend then .tfend else if b = cfg.tfesc then .tfesc else .badTransposed b
      else if b = cfg.fesc then .fesc
      else if empty && b = cfg.kissCmdData then .kissCmdData
      else .kdata b := if_neg h

/-- What every byte but the delimiter does is `KDEC_STEP`, but for an append at a length beyond the capacity. -/
theorem exec_decodeKissByte_of_ne_fend (h : b ≠ s.cfg.fend) (empty : Bool) :
    exec (decodeKissByte s.cfg empty s.k.drop s.k.esc b) s = .next (s.decoded (kdecStep s.cfg s.k b)) ∨
    (s.cfg.kissCap < s.k.len ∧
      exec (decodeKissByte s.cfg empty s.k.drop s.k.esc b) s = .fault .kbufIndex) := by
  rw [kdecStep_of_ne_fend h, decodeKissByte_of_ne_fend h]
  split_ifs with hdrop hesc htfend htfesc hfesc hdata
  · -- discarding (R113)
    rw [State.decoded_none]
    exact .inl rfl
  · -- transposed codes (R114)
    exact s.append_eq_decoded_or_fault (s.k.setEsc false) s.cfg.fend
  · exact s.append_eq_decoded_or_fault (s.k.setEsc false) s.cfg.fesc
  · rw [State.decoded_kerr]
    exact .inl rfl
  · -- escape (R115)
    rw [State.decoded_none]
    exact .inl rfl
  · -- literal bytes (R116)
    obtain rfl : b = s.cfg.kissCmdData := by simp_all
    exact s.append_eq_decoded_or_fault s.k s.cfg.kissCmdData
  · exact s.append_eq_decoded_or_fault s.k b

/-- Everything a byte of `KISS_RX` in its place can do: `KDEC_STEP` with the reply of a delivered frame; on a length beyond
`KISS_CAP`, a fault; on the end of a frame whose payload no reply can carry, a refusal. -/
theorem exec_decodeKissByte (s : State) (b : Byte) :
    let i := decodeKissByte s.cfg (decide (s.k.len = 0)) s.k.drop s.k.esc b
    exec i s = .next (s.decoded (kdecStep s.cfg s.k b)) ∨
    (s.cfg.kissCap < s.k.len ∧ exec i s = .fault .kbufIndex) ∨
    (256 < s.k.len ∧ s.k.len ≤ s.cfg.kissCap ∧ exec i s = .refused .replyTooLong) := by
  by_cases hfend : b = s.cfg.fend
  · subst hfend
    by_cases hempty : s.k.len = 0
    · have hi : decodeKissByte s.cfg (decide (s.k.len = 0)) s.k.drop s.k.esc s.cfg.fend = .fendPad := by
        simp [decodeKissByte, hempty]
      rw [hi, kdecStep_padding hempty, State.decoded_none]
      exact .inl rfl
    · have hi : decodeKissByte s.cfg (decide (s.k.len = 0)) s.k.drop s.k.esc s.cfg.fend = .fendEnd := by
        simp [decodeKissByte, hempty]
      rw [hi]
      exact execFendEnd_cases hempty
  · exact (exec_decodeKissByte_of_ne_fend hfend _).imp_right .inl

/-- A decoder byte that goes on did `KDEC_STEP`. -/
theorem exec_decodeKissByte_next
    (h : exec (decodeKissByte s.cfg (decide (s.k.len = 0)) s.k.drop s.k.esc b) s = .next t) :
    t = s.decoded (kdecStep s.cfg s.k b) := by
  obtain hx | ⟨-, hx⟩ | ⟨-, -, hx⟩ := exec_decodeKissByte s b
  · exact (Host.Outcome.next.inj (hx.symm.trans h)).symm
  · cases hx.symm.trans h
  · cases hx.symm.trans h

/-- A frame a reply can carry, in a buffer within its capacity, meets no stop. -/
theorem exec_decodeKissByte_of_le (hcap : s.k.len ≤ s.cfg.kissCap) (hlen : s.k.len ≤ 256) (b : Byte) :
    exec (decodeKissByte s.cfg (decide (s.k.len = 0)) s.k.drop s.k.esc b) s =
      .next (s.decoded (kdecStep s.cfg s.k b)) := by
  obtain hx | ⟨hgt, -⟩ | ⟨hgt, -, -⟩ := exec_decodeKissByte s b
  · exact hx
  · exact absurd hcap (Nat.not_le.mpr hgt)
  · exact absurd hlen (Nat.not_le.mpr hgt)

/-- Settles O9: with `KISS_CAP` at most 256 the invariant rules out both stops (`exec_decodeKissByte_of_le`). -/
theorem decoderTurnIsKdecStep : Obligations.DecoderTurnIsKdecStep := by
  intro s b bs ts hinv hcap hsched hrx
  have hlen : s.k.len ≤ s.cfg.kissCap := hinv.kiss.len_le
  rw [step_decoder hinv.between hsched hrx]
  refine (exec_decodeKissByte_of_le (s := { s with sched := ts, kissRx := bs }) hlen (hlen.trans hcap) b).trans ?_
  cases he : (kdecStep s.cfg s.k b).2 <;> simp [State.decoded, he, rxBytes]

/-! ## What is stored -/

variable {cfg : Config} {v : Byte}

/-- `APPEND` stores its byte or empties the buffer (R117). -/
theorem kissAppend_cases (cfg : Config) (k : Kiss) (v : Byte) :
    (k.len = cfg.kissCap ∧ kissAppend cfg k v = (k.fail, .kerr .overflow)) ∨
    (k.len ≠ cfg.kissCap ∧
      kissAppend cfg k v = ({ k with buf := Memory.write k.buf k.len v, len := k.len + 1 }, .none)) := by
  by_cases h : k.len = cfg.kissCap
  · exact .inl ⟨h, if_pos h⟩
  · exact .inr ⟨h, if_neg h⟩

/-- The byte `APPEND` stored is the one at the old length. -/
theorem readKbuf_kissAppend (h : (kissAppend cfg k v).1.len = k.len + 1) :
    (kissAppend cfg k v).1.buf.readKbuf k.len = v := by
  obtain ⟨-, hx⟩ | ⟨-, hx⟩ := kissAppend_cases cfg k v
  · rw [hx] at h
    cases h
  · rw [hx]
    exact Memory.readKbuf_write_self

/-- R22 (iii) on `KDEC_STEP`: a byte that is stored as the delimiter's value was the transposed delimiter. -/
theorem kdecStep_stores_fend (g : cfg.Good) (hlen : (kdecStep cfg k b).1.len = k.len + 1)
    (hread : (kdecStep cfg k b).1.buf.readKbuf k.len = cfg.fend) : k.esc = true ∧ b = cfg.tfend := by
  by_cases hfend : b = cfg.fend
  · subst hfend
    by_cases hempty : k.len = 0
    · rw [kdecStep_padding hempty] at hlen
      simp at hlen
    · rw [kdecStep_fend hempty] at hlen
      simp at hlen
  rw [kdecStep_of_ne_fend hfend] at hlen hread
  split_ifs at hlen hread with hdrop hesc htfend htfesc hfesc
  · simp at hlen
  · exact ⟨hesc, htfend⟩
  · exact absurd ((readKbuf_kissAppend hlen).symm.trans hread) g.fend_fesc.symm
  · simp at hlen
  · simp at hlen
  · exact absurd ((readKbuf_kissAppend hlen).symm.trans hread) hfend

/-- Settles O49: the turn did `KDEC_STEP` (`exec_decodeKissByte_next`), which stores the delimiter's value for the transposed
delimiter alone: the transposed escape stores `FESC`, and a literal is not the delimiter. -/
theorem storedDelimiterWasTransposed : Obligations.StoredDelimiterWasTransposed := by
  intro s t b bs ts hwf hcalls hsched hrx hstep hlen hread
  rw [step_decoder hcalls hsched hrx] at hstep
  obtain rfl := exec_decodeKissByte_next (s := { s with sched := ts, kissRx := bs }) hstep
  exact kdecStep_stores_fend (Config.good_of_wf hwf) hlen hread

end Sys2Proof.Machine
end

section
/-! PROOFS. A parser turn is `PARSE_STEP` (R130 to R141): what the byte in its place does is `parseStep` with what its event
causes, in every state whose indices and command id the parser can use (`Parser.Ready`). Everything about parser turns rests on
`exec_decodeCmdByte`. -/

namespace Sys2Proof.Machine

/-- What its event causes in the same step (R141): an error reply with the current `STATUS`, or the handler call of a dispatch
and its outputs. -/
def State.parsed (s : State) (r : Parser × Event) : State :=
  match r.2 with
  | .error code =>
    { s with p := r.1, event := .error code, cmdTx := s.cmdTx ++ errReplyFrame s.cfg s.env.status code }
  | .dispatch c n q =>
    match s.cfg.command? c with
    | some cmd => ((s.setP r.1).noteDispatch c n q).handle cmd q
    | none => (s.setP r.1).noteDispatch c n q
  | e => { s with p := r.1, event := e }

/-- What a parser state needs so that no byte faults (R175, R40): a listed command where its rule or handler is looked up, and
indices inside `PBUF`. -/
structure Parser.Ready (cfg : Config) (p : Parser) : Prop where
  listed : p.st = .len ∨ p.st = .chkLo → (cfg.command? p.cmd).isSome = true
  idx_lt : p.st = .payload → p.idx.toNat < cfg.maxPayload
  len_le : p.st = .chkLo → p.len.toNat ≤ cfg.maxPayload

variable {s t : State} {p : Parser} {b : Byte} {cfg : Config}

/-! ## The state after a parser step -/

theorem State.parsed_none (s : State) (p : Parser) : s.parsed (p, .none) = { s with p := p, event := .none } := rfl

theorem State.parsed_error (s : State) (p : Parser) (code : Byte) :
    s.parsed (p, .error code) =
      { s with p := p, event := .error code, cmdTx := s.cmdTx ++ errReplyFrame s.cfg s.env.status code } := rfl

theorem State.parsed_dispatch {c n : Byte} {q : List Byte} {cmd : Command} (h : s.cfg.command? c = some cmd) (p : Parser) :
    s.parsed (p, .dispatch c n q) = ((s.setP p).noteDispatch c n q).handle cmd q := by
  simp only [State.parsed, h]

/-- Whatever its event causes, a parser step leaves the given `P`, and `K` as it was. -/
theorem State.parsed_p_k (s : State) (r : Parser × Event) : (s.parsed r).p = r.1 ∧ (s.parsed r).k = s.k := by
  obtain ⟨p, e⟩ := r
  cases e with
  | dispatch c n q => cases hc : s.cfg.command? c <;> simp [State.parsed, hc]
  | none => exact ⟨rfl, rfl⟩
  | error code => exact ⟨rfl, rfl⟩
  | rxframe q => exact ⟨rfl, rfl⟩
  | kerr r => exact ⟨rfl, rfl⟩

/-! ## PARSE_STEP by the parser's state -/

theorem parseStep_sync0 (h : p.st = .sync0) :
    parseStep cfg p b = (if b = cfg.syncHi then { p with st := .sync1 } else p, .none) := by
  simp only [parseStep, h]

theorem parseStep_sync1 (h : p.st = .sync1) :
    parseStep cfg p b =
      ({ p with st := if b = cfg.syncLo then .cmd else if b = cfg.syncHi then .sync1 else .sync0 }, .none) := by
  simp only [parseStep, h]
  split_ifs <;> rfl

theorem parseStep_cmd_listed (h : p.st = .cmd) {c : Command} (hc : cfg.command? b = some c) :
    parseStep cfg p b = ({ p with cmd := b, computed := fStep cfg 0 b, st := .len }, .none) := by
  have hv : validCmd cfg b = true := by rw [validCmd_eq_isSome, hc]; rfl
  simp only [parseStep, h, if_pos hv]

theorem parseStep_cmd_unlisted (h : p.st = .cmd) (hc : cfg.command? b = none) :
    parseStep cfg p b = (p.preset, .error cfg.errInvalidCmd) := by
  have hv : ¬ validCmd cfg b = true := by rw [validCmd_eq_isSome, hc]; simp
  simp only [parseStep, h, if_neg hv]

theorem parseStep_len (h : p.st = .len) {c : Command} (hc : cfg.command? p.cmd = some c) :
    parseStep cfg p b =
      if validLen cfg c b then
        ({ p with computed := fStep cfg p.computed b, len := b, idx := 0, st := if b = 0 then .chkHi else .payload },
          .none)
      else (p.preset, .error cfg.errInvalidLen) := by
  simp only [parseStep, h, hc, Option.any_some]

theorem parseStep_payload (h : p.st = .payload) :
    parseStep cfg p b =
      ({ p with buf := p.buf.write p.idx.toNat b, computed := fStep cfg p.computed b, idx := p.idx + 1,
                st := if p.idx + 1 = p.len then .chkHi else .payload }, .none) := by
  simp only [parseStep, h]
  split_ifs <;> rfl

theorem parseStep_chkHi (h : p.st = .chkHi) :
    parseStep cfg p b = ({ p with rx := cat b (lo p.rx), st := .chkLo }, .none) := by
  simp only [parseStep, h]

theorem parseStep_chkLo (h : p.st = .chkLo) :
    parseStep cfg p b =
      (p.preset, if cat (hi p.rx) b = p.computed then .dispatch p.cmd p.len (p.buf.pbufBytes p.len.toNat)
        else .error cfg.errChecksum) := by
  simp only [parseStep, h]
  split_ifs <;> rfl

/-! ## The instructions by their tests -/

theorem exec_len {c : Command} (hc : s.cfg.command? s.p.cmd = some c) :
    exec (.len b) s =
      if validLen s.cfg c b then
        .next { s with
          p := { s.p with computed := fStep s.cfg s.p.computed b, len := b, idx := 0,
                          st := if b = 0 then .chkHi else .payload },
          event := .none }
      else .next (s.raise .invalidLen) := by
  simp only [exec, execLen, hc]
  rfl

theorem exec_chklo_of_ne (h : cat (hi s.p.rx) b ≠ s.p.computed) : exec (.chklo b) s = .next (s.raise .checksum) :=
  if_neg h

/-- The low checksum byte of a good frame: the parser is reset, the dispatch recorded, and the handler run (R137, R173). -/
theorem exec_chklo_dispatch {c : Command} (hc : s.cfg.command? s.p.cmd = some c)
    (hl : s.p.len.toNat ≤ s.cfg.maxPayload) (hsum : cat (hi s.p.rx) b = s.p.computed) :
    exec (.chklo b) s =
      .next ((s.preset.noteDispatch s.p.cmd s.p.len (s.p.buf.pbufBytes s.p.len.toNat)).handle c
        (s.p.buf.pbufBytes s.p.len.toNat)) := by
  rw [exec_chklo_of_eq hsum, State.dispatch_eq hc hl]

/-- What a byte of `CMD_RX` in its place does is `PARSE_STEP` with what its event causes. -/
theorem exec_decodeCmdByte (g : s.cfg.Good) (hr : s.p.Ready s.cfg) (b : Byte) :
    exec (decodeCmdByte s.cfg b s.p.st) s = .next (s.parsed (parseStep s.cfg s.p b)) := by
  cases hst : s.p.st with
  | sync0 =>
    rw [parseStep_sync0 hst, State.parsed_none]
    by_cases hb : b = s.cfg.syncHi
    · rw [if_pos hb]
      exact exec_syncHi_of_eq hb
    · rw [if_neg hb]
      exact exec_syncHi_of_ne hb
  | sync1 =>
    rw [parseStep_sync1 hst, State.parsed_none, exec_decodeCmdByte_sync1 g.sync_ne, exec_syncLo,
      State.setEvent_none_setSt]
  | cmd =>
    cases hc : s.cfg.command? b with
    | some c =>
      obtain rfl := Config.id_of_command? hc
      rw [decodeCmdByte_command hc, exec_command, parseStep_cmd_listed hst hc, State.parsed_none, State.acceptCmd,
        g.seed_zero]
      rfl
    | none =>
      rw [decodeCmdByte_invalid hc, parseStep_cmd_unlisted hst hc]
      rfl
  | len =>
    obtain ⟨c, hc⟩ := Option.isSome_iff_exists.mp (hr.listed (.inl hst))
    rw [parseStep_len hst hc]
    refine (exec_len hc).trans ?_
    by_cases hv : validLen s.cfg c b = true
    · rw [if_pos hv, if_pos hv]
      rfl
    · rw [if_neg hv, if_neg hv]
      rfl
  | payload =>
    rw [parseStep_payload hst, State.parsed_none]
    exact (exec_payload_of_lt (hr.idx_lt hst)).trans (by rw [hst])
  | chkHi =>
    rw [parseStep_chkHi hst]
    rfl
  | chkLo =>
    obtain ⟨c, hc⟩ := Option.isSome_iff_exists.mp (hr.listed (.inr hst))
    rw [parseStep_chkLo hst]
    by_cases hsum : cat (hi s.p.rx) b = s.p.computed
    · rw [if_pos hsum, State.parsed_dispatch hc]
      exact exec_chklo_dispatch hc (hr.len_le hst) hsum
    · rw [if_neg hsum]
      exact exec_chklo_of_ne hsum

/-- The invariant leaves the parser ready for every byte (R17). -/
theorem ParserInv.ready (h : ParserInv cfg p) : p.Ready cfg where
  listed hst := h.cmd_known (by obtain hst | hst := hst <;> rw [hst] <;> rfl)
  idx_lt hst := Nat.lt_of_lt_of_le (h.idx_payload hst) h.len_le
  len_le _ := h.len_le

/-- A dispatch is of the command in `P`, which is looked up at the low checksum byte. -/
theorem parseStep_dispatch {c n : Byte} {q : List Byte} (h : (parseStep cfg p b).2 = .dispatch c n q) :
    p.st = .chkLo ∧ c = p.cmd := by
  cases hst : p.st with
  | chkLo =>
    rw [parseStep_chkLo hst] at h
    split_ifs at h
    exact ⟨rfl, (Event.dispatch.inj h).1.symm⟩
  | sync0 => rw [parseStep_sync0 hst] at h; cases h
  | sync1 => rw [parseStep_sync1 hst] at h; cases h
  | payload => rw [parseStep_payload hst] at h; cases h
  | chkHi => rw [parseStep_chkHi hst] at h; cases h
  | cmd => simp only [parseStep, hst] at h; split_ifs at h
  | len => simp only [parseStep, hst] at h; split_ifs at h

/-- Settles O8: the invariant makes the parser ready, and the turn is `exec_decodeCmdByte`; what each kind of event causes is
read off `State.parsed`. -/
theorem parserTurnIsParseStep : Obligations.ParserTurnIsParseStep := by
  intro s b bs ts hinv hsched hrx
  have hr : s.p.Ready s.cfg := hinv.parser.ready
  refine ⟨State.parsed { s with sched := ts, cmdRx := bs } (parseStep s.cfg s.p b),
    (step_parser hinv.between hsched hrx).trans
      (exec_decodeCmdByte (s := { s with sched := ts, cmdRx := bs }) (Config.good_of_wf hinv.cfg_wf) hr b), ?_⟩
  generalize hstep : parseStep s.cfg s.p b = r
  obtain ⟨p', e⟩ := r
  cases e with
  | none => simp [State.parsed]
  | error code => simp [State.parsed]
  | rxframe q => simp [State.parsed]
  | kerr r => simp [State.parsed]
  | dispatch c n q =>
    obtain ⟨hst, rfl⟩ := parseStep_dispatch (congrArg Prod.snd hstep)
    obtain ⟨cmd, hcmd⟩ := Option.isSome_iff_exists.mp (hr.listed (.inr hst))
    rw [State.parsed_dispatch (s := { s with sched := ts, cmdRx := bs }) hcmd]
    simp
    exact ⟨rfl, cmd, hcmd, rfl, rfl, rfl⟩

end Sys2Proof.Machine
end

section
/-! PROOFS. The invariant (R17, R19, R22): it holds of the reset registers, `PARSE_STEP` and `KDEC_STEP` keep their halves of
it, and a state with it meets no stop but the refusal of an overlong delivery. -/

namespace Sys2Proof.Machine

variable {cfg : Config} {p : Parser} {k : Kiss} {b : Byte} {s t : State}

/-! ## The parser's half -/

/-- Before the length byte of a frame, with every register zero, only `PBUF` has something to say. -/
theorem parserInv_of_cleared (hst : p.st.pastCmd = false)
    (hzero : p.cmd = 0 ∧ p.len = 0 ∧ p.idx = 0 ∧ p.computed = 0 ∧ p.rx = 0) (hwf : p.buf.wf = true)
    (hbound : ∀ i, (p.buf.get? i).isSome = true → i < cfg.maxPayload) : ParserInv cfg p := by
  obtain ⟨hcmd, hlen, hidx, hcalc, hrx⟩ := hzero
  have hlate : p.st ≠ .len ∧ p.st ≠ .payload ∧ p.st ≠ .chkHi ∧ p.st ≠ .chkLo := by
    simpa [ParserState.pastCmd, and_assoc] using hst
  obtain ⟨hnlen, hnpay, hnhi, hnlo⟩ := hlate
  have hpast : p.st.pastLen = false := by simp [ParserState.pastLen, hnpay, hnhi, hnlo]
  exact {
    len_le := by simp [hlen]
    idx_le := by simp [hidx]
    idx_payload := fun h => absurd h hnpay
    idx_chk := fun _ => by rw [hidx, hlen]
    cleared := fun _ => ⟨hcmd, hlen, hidx, hcalc, hrx⟩
    cmd_known := fun h => by simp [hst] at h
    len_valid := fun h => by simp [hpast] at h
    len_fresh := fun h => absurd h hnlen
    calc_fold := fun h => by simp [hpast] at h
    rx_zero := fun _ => hrx
    rx_low := by rw [hrx]; rfl
    written := fun i hi => by simp [hidx] at hi
    buf_wf := hwf
    buf_bound := hbound }

theorem parserInv_reset (cfg : Config) : ParserInv cfg Parser.reset :=
  parserInv_of_cleared rfl ⟨rfl, rfl, rfl, rfl, rfl⟩ rfl fun _ hi => by cases hi

theorem ParserInv.preset (h : ParserInv cfg p) : ParserInv cfg p.preset :=
  parserInv_of_cleared rfl ⟨rfl, rfl, rfl, rfl, rfl⟩ h.buf_wf h.buf_bound

/-- Between the three states before the length byte the parser moves freely (R131, R132). -/
theorem ParserInv.move {st : ParserState} (h : ParserInv cfg p) (hp : p.st.pastCmd = false) (hst : st.pastCmd = false) :
    ParserInv cfg { p with st := st } :=
  parserInv_of_cleared hst (h.cleared hp) h.buf_wf h.buf_bound

/-- R133: an accepted command byte seeds the checksum. -/
theorem ParserInv.acceptCmd (g : cfg.Good) (h : ParserInv cfg p) (hst : p.st = .cmd)
    (hb : (cfg.command? b).isSome = true) :
    ParserInv cfg { p with cmd := b, computed := fStep cfg 0 b, st := .len } := by
  obtain ⟨-, hlen, hidx, -, hrx⟩ := h.cleared (by rw [hst]; rfl)
  exact {
    len_le := h.len_le
    idx_le := h.idx_le
    idx_payload := nofun
    idx_chk := by simp
    cleared := nofun
    cmd_known := fun _ => hb
    len_valid := nofun
    len_fresh := fun _ => ⟨hlen, hidx, by rw [fletcher_single, g.seed_zero]⟩
    calc_fold := nofun
    rx_zero := fun _ => hrx
    rx_low := h.rx_low
    written := h.written
    buf_wf := h.buf_wf
    buf_bound := h.buf_bound }

/-- The field after a length or payload byte (R134, R135) is `PAYLOAD` only while payload bytes are still to come, -/
theorem not_of_next_payload {c : Prop} [Decidable c]
    (h : (if c then ParserState.chkHi else .payload) = .payload) : ¬ c := by
  intro hc
  rw [if_pos hc] at h
  cases h

/-- and a checksum field only when none is. -/
theorem of_next_chk {c : Prop} [Decidable c]
    (h : (if c then ParserState.chkHi else .payload) = .chkHi ∨ (if c then ParserState.chkHi else .payload) = .chkLo) :
    c := by
  by_contra hc
  simp [hc] at h

theorem next_pastCmd {c : Prop} [Decidable c] : (if c then ParserState.chkHi else .payload).pastCmd = true := by
  split_ifs <;> rfl

/-- R134: an admitted length starts the payload, or the checksum when it is zero. -/
theorem ParserInv.acceptLen (h : ParserInv cfg p) (hst : p.st = .len) {c : Command} (hc : cfg.command? p.cmd = some c)
    (hv : validLen cfg c b = true) :
    ParserInv cfg { p with computed := fStep cfg p.computed b, len := b, idx := 0,
                           st := if b = 0 then .chkHi else .payload } := by
  obtain ⟨-, -, hcalc⟩ := h.len_fresh hst
  have hrx : p.rx = 0 := h.rx_zero (by rw [hst]; nofun)
  exact {
    len_le := (validLen_iff.mp hv).1
    idx_le := Nat.zero_le _
    idx_payload := fun hpay =>
      Nat.pos_of_ne_zero fun hz => not_of_next_payload hpay (BitVec.eq_of_toNat_eq hz)
    idx_chk := fun hchk => (of_next_chk hchk).symm
    cleared := fun hne => by rw [next_pastCmd] at hne; cases hne
    cmd_known := fun _ => by rw [hc]; rfl
    len_valid := fun _ d hd => by rwa [← Option.some.inj (hc.symm.trans hd)]
    len_fresh := by split_ifs <;> nofun
    calc_fold := fun _ => by
      simp only [hcalc, ← fletcher_concat]
      rfl
    rx_zero := fun _ => hrx
    rx_low := h.rx_low
    written := fun i hi => by simp at hi
    buf_wf := h.buf_wf
    buf_bound := h.buf_bound }

/-- R135: a payload byte extends what `PBUF` holds of the frame. -/
theorem ParserInv.storePayload (h : ParserInv cfg p) (hst : p.st = .payload) :
    ParserInv cfg { p with buf := p.buf.write p.idx.toNat b, computed := fStep cfg p.computed b, idx := p.idx + 1,
                           st := if p.idx + 1 = p.len then .chkHi else .payload } := by
  have hlt : p.idx.toNat < p.len.toNat := h.idx_payload hst
  have hsucc : (p.idx + 1).toNat = p.idx.toNat + 1 := by
    have := p.len.isLt
    rw [BitVec.toNat_add]
    exact Nat.mod_eq_of_lt (by simp; omega)
  have hpast : p.st.pastLen = true := by rw [hst]; rfl
  exact {
    len_le := h.len_le
    idx_le := by rw [hsucc]; exact hlt
    idx_payload := by
      intro hpay
      have hne : (p.idx + 1).toNat ≠ p.len.toNat := fun he => not_of_next_payload hpay (BitVec.eq_of_toNat_eq he)
      show (p.idx + 1).toNat < p.len.toNat
      omega
    idx_chk := of_next_chk
    cleared := fun hne => by rw [next_pastCmd] at hne; cases hne
    cmd_known := fun _ => h.cmd_known (by rw [hst]; rfl)
    len_valid := fun _ => h.len_valid hpast
    len_fresh := by split_ifs <;> nofun
    calc_fold := fun _ => by
      simp only [hsucc, Memory.pbufBytes_append, h.calc_fold hpast, ← fletcher_concat, List.append_assoc]
    rx_zero := fun _ => h.rx_zero (by rw [hst]; nofun)
    rx_low := h.rx_low
    written := by
      intro i hi
      rw [hsucc] at hi
      rw [Memory.isSome_write]
      obtain rfl | hlt := Nat.eq_or_lt_of_le (Nat.lt_succ_iff.mp hi)
      · exact .inl rfl
      · exact .inr (h.written i hlt)
    buf_wf := Memory.wf_write h.buf_wf
    buf_bound := by
      intro i hi
      obtain rfl | hi := Memory.isSome_write.mp hi
      · exact Nat.lt_of_lt_of_le hlt h.len_le
      · exact h.buf_bound i hi }

/-- R136: the high checksum byte. -/
theorem ParserInv.receiveHigh (h : ParserInv cfg p) (hst : p.st = .chkHi) :
    ParserInv cfg { p with rx := cat b (lo p.rx), st := .chkLo } := {
    len_le := h.len_le
    idx_le := h.idx_le
    idx_payload := nofun
    idx_chk := fun _ => h.idx_chk (.inl hst)
    cleared := nofun
    cmd_known := fun _ => h.cmd_known (by rw [hst]; rfl)
    len_valid := fun _ => h.len_valid (by rw [hst]; rfl)
    len_fresh := nofun
    calc_fold := fun _ => h.calc_fold (by rw [hst]; rfl)
    rx_zero := fun hne => absurd rfl hne
    rx_low := by simp [h.rx_low]
    written := h.written
    buf_wf := h.buf_wf
    buf_bound := h.buf_bound }

/-- R17: `PARSE_STEP` keeps the parser's half of the invariant. -/
theorem ParserInv.parseStep (g : cfg.Good) (h : ParserInv cfg p) (b : Byte) : ParserInv cfg (parseStep cfg p b).1 := by
  cases hst : p.st with
  | sync0 =>
    rw [parseStep_sync0 hst]
    show ParserInv cfg (if b = cfg.syncHi then { p with st := .sync1 } else p)
    split_ifs
    · exact h.move (by rw [hst]; rfl) rfl
    · exact h
  | sync1 =>
    rw [parseStep_sync1 hst]
    exact h.move (by rw [hst]; rfl) (by split_ifs <;> rfl)
  | cmd =>
    cases hc : cfg.command? b with
    | some c =>
      rw [parseStep_cmd_listed hst hc]
      exact h.acceptCmd g hst (by rw [hc]; rfl)
    | none =>
      rw [parseStep_cmd_unlisted hst hc]
      exact h.preset
  | len =>
    obtain ⟨c, hc⟩ := Option.isSome_iff_exists.mp (h.cmd_known (by rw [hst]; rfl))
    rw [parseStep_len hst hc]
    by_cases hv : validLen cfg c b = true
    · rw [if_pos hv]
      exact h.acceptLen hst hc hv
    · rw [if_neg hv]
      exact h.preset
  | payload =>
    rw [parseStep_payload hst]
    exact h.storePayload hst
  | chkHi =>
    rw [parseStep_chkHi hst]
    exact h.receiveHigh hst
  | chkLo =>
    rw [parseStep_chkLo hst]
    exact h.preset

/-! ## The decoder's half -/

theorem kissInv_reset (cfg : Config) : KissInv cfg Kiss.reset where
  len_le := Nat.zero_le _
  len_fits := Nat.two_pow_pos _
  drop_empty := nofun
  written _ hi := by cases hi
  buf_wf := rfl
  buf_bound _ hi := by cases hi

/-- With an empty buffer the flags are all there is to say (R111, R112, R114, R117). -/
theorem KissInv.emptied (h : KissInv cfg k) {esc drop : Bool} (hflags : drop = true → esc = false) :
    KissInv cfg { k with len := 0, esc := esc, drop := drop } where
  len_le := Nat.zero_le _
  len_fits := Nat.two_pow_pos _
  drop_empty hd := ⟨rfl, hflags hd⟩
  written _ hi := by cases hi
  buf_wf := h.buf_wf
  buf_bound := h.buf_bound

/-- Outside a failed frame the escape flag is free (R114, R115). -/
theorem KissInv.setEsc (h : KissInv cfg k) (hdrop : k.drop = false) (v : Bool) : KissInv cfg (k.setEsc v) where
  len_le := h.len_le
  len_fits := h.len_fits
  drop_empty hd := by rw [Kiss.setEsc_drop, hdrop] at hd; cases hd
  written := h.written
  buf_wf := h.buf_wf
  buf_bound := h.buf_bound

/-- R117: a byte stored within the capacity. -/
theorem KissInv.store (h : KissInv cfg k) (hdrop : k.drop = false) (hlen : k.len ≠ cfg.kissCap) (v : Byte) :
    KissInv cfg { k with buf := Memory.write k.buf k.len v, len := k.len + 1 } := by
  have hlt : k.len < cfg.kissCap := Nat.lt_of_le_of_ne h.len_le hlen
  exact {
    len_le := hlt
    len_fits := Nat.lt_of_le_of_lt hlt (kissCap_lt cfg)
    drop_empty := fun hd => by rw [hdrop] at hd; cases hd
    written := by
      intro i hi
      rw [Memory.isSome_write]
      obtain rfl | hi := Nat.eq_or_lt_of_le (Nat.lt_succ_iff.mp hi)
      · exact .inl rfl
      · exact .inr (h.written i hi)
    buf_wf := Memory.wf_write h.buf_wf
    buf_bound := by
      intro i hi
      obtain rfl | hi := Memory.isSome_write.mp hi
      · exact hlt
      · exact h.buf_bound i hi }

/-- An append outside a failed frame, with no escape pending (R117). -/
theorem KissInv.append (h : KissInv cfg k) (hdrop : k.drop = false) (hesc : k.esc = false) (v : Byte) :
    KissInv cfg (kissAppend cfg k v).1 := by
  obtain ⟨-, hx⟩ | ⟨hlen, hx⟩ := kissAppend_cases cfg k v
  · rw [hx]
    exact h.emptied fun _ => hesc
  · rw [hx]
    exact h.store hdrop hlen v

/-- R22: `KDEC_STEP` keeps the decoder's half of the invariant. -/
theorem KissInv.kdecStep (h : KissInv cfg k) (b : Byte) : KissInv cfg (kdecStep cfg k b).1 := by
  by_cases hfend : b = cfg.fend
  · subst hfend
    by_cases hempty : k.len = 0
    · rw [kdecStep_padding hempty, show k.clearFlags = { k with len := 0, esc := false, drop := false } by
        rw [Kiss.clearFlags, ← hempty]]
      exact h.emptied nofun
    · rw [kdecStep_fend hempty]
      exact h.emptied nofun
  rw [kdecStep_of_ne_fend hfend]
  split_ifs with hdrop hesc htfend htfesc hfesc
  · exact h
  · exact (h.setEsc (Bool.eq_false_of_not_eq_true hdrop) false).append (Bool.eq_false_of_not_eq_true hdrop) rfl _
  · exact (h.setEsc (Bool.eq_false_of_not_eq_true hdrop) false).append (Bool.eq_false_of_not_eq_true hdrop) rfl _
  · exact h.emptied fun _ => rfl
  · exact h.setEsc (Bool.eq_false_of_not_eq_true hdrop) true
  · exact h.append (Bool.eq_false_of_not_eq_true hdrop) (Bool.eq_false_of_not_eq_true hesc) _

/-! ## Every step -/

/-- Settles O55: the reset registers meet both halves, and nothing is asked of the units. -/
theorem invariantAtReset : Obligations.InvariantAtReset := by
  have created : ∀ (cfg : Config) (env : Env), cfg.wf = true → Inv (State.created cfg env) := fun cfg _ hwf =>
    ⟨hwf, parserInv_reset cfg, kissInv_reset cfg, rfl⟩
  exact ⟨created, created Config.decided envAtReset (by decide)⟩

/-- Settles O56: a state with the invariant stands between steps, so the step was a quiet move or one byte, which is
`PARSE_STEP` on `P` or `KDEC_STEP` on `K`. -/
theorem stepKeepsTheInvariant : Obligations.StepKeepsTheInvariant := by
  intro s t hinv hstep
  have g := Config.good_of_wf hinv.cfg_wf
  obtain ⟨hinside, -⟩ | ⟨-, ⟨-, rfl⟩ | ⟨_, ts, -, noCmdByte | noKissByte | outside | parsed | decoded⟩⟩ :=
    step_cases hstep
  · exact absurd hinv.between hinside
  · exact hinv
  · obtain ⟨-, -, rfl⟩ := noCmdByte
    exact ⟨hinv.cfg_wf, hinv.parser, hinv.kiss, hinv.between⟩
  · obtain ⟨-, -, rfl⟩ := noKissByte
    exact ⟨hinv.cfg_wf, hinv.parser, hinv.kiss, hinv.between⟩
  · obtain ⟨_, -, rfl⟩ := outside
    exact ⟨hinv.cfg_wf, hinv.parser, hinv.kiss, hinv.between⟩
  · obtain ⟨b, bs, -, -, hx⟩ := parsed
    obtain ⟨hcfg, -, -, -, hcalls⟩ := State.given_eq_iff.mp (exec_given hx)
    have hrun := exec_decodeCmdByte (s := { s with sched := ts, cmdRx := bs }) g hinv.parser.ready b
    obtain rfl := Host.Outcome.next.inj (hrun.symm.trans hx)
    obtain ⟨hp, hk⟩ := State.parsed_p_k { s with sched := ts, cmdRx := bs } (parseStep s.cfg s.p b)
    exact ⟨by rw [hcfg]; exact hinv.cfg_wf, by rw [hcfg, hp]; exact hinv.parser.parseStep g b,
      by rw [hcfg, hk]; exact hinv.kiss, hcalls.trans hinv.between⟩
  · obtain ⟨b, bs, -, -, hx⟩ := decoded
    obtain rfl := exec_decodeKissByte_next (s := { s with sched := ts, kissRx := bs }) hx
    exact ⟨hinv.cfg_wf, hinv.parser, hinv.kiss.kdecStep b, hinv.between⟩

/-- How a step from a state with the invariant ends: it goes on, or it is a delivery that no reply can carry (R118). -/
theorem Inv.step_next_or_refused (hinv : Inv s) :
    (∃ t, step s = .next t) ∨ (256 < s.cfg.kissCap ∧ step s = .refused .replyTooLong) := by
  cases hs : s.sched with
  | nil => exact .inl ⟨s, step_idle hinv.between hs⟩
  | cons u ts =>
    cases u with
    | outside e => exact .inl ⟨_, step_outside hinv.between hs⟩
    | parser =>
      cases hb : s.cmdRx with
      | nil => exact .inl ⟨_, step_parser_empty hinv.between hs hb⟩
      | cons b bs =>
        rw [step_parser hinv.between hs hb]
        exact .inl ⟨_, exec_decodeCmdByte (s := { s with sched := ts, cmdRx := bs }) (Config.good_of_wf hinv.cfg_wf)
          hinv.parser.ready b⟩
    | decoder =>
      cases hb : s.kissRx with
      | nil => exact .inl ⟨_, step_decoder_empty hinv.between hs hb⟩
      | cons b bs =>
        rw [step_decoder hinv.between hs hb]
        obtain hx | ⟨hgt, -⟩ | ⟨hlong, hle, hx⟩ := exec_decodeKissByte { s with sched := ts, kissRx := bs } b
        · exact .inl ⟨_, hx⟩
        · exact absurd hinv.kiss.len_le (Nat.not_le.mpr hgt)
        · exact .inr ⟨Nat.lt_of_lt_of_le hlong hle, hx⟩

/-- Settles O57: the two ways such a step ends (`Inv.step_next_or_refused`) are no fault, and the one refusal is this one. -/
theorem noFaultIsReachable : Obligations.NoFaultIsReachable := by
  intro s hinv
  obtain ⟨t, hx⟩ | ⟨hcap, hx⟩ := hinv.step_next_or_refused
  · rw [hx]
    exact ⟨nofun, nofun⟩
  · rw [hx]
    exact ⟨nofun, fun r hr => ⟨(Host.Outcome.refused.inj hr).symm, hcap⟩⟩

end Sys2Proof.Machine
end

section
/-! PROOFS. Runs of one agent. A run over bytes that cause no event is followed on `P` or `K` alone (`Silent`,
`run_parser_silent`, `run_decoder_silent`); the byte that ends a frame is then one step more. -/

namespace Sys2Proof.Machine

/-- A step function takes a register file over bytes none of which causes an event; `ok` holds before each. -/
inductive Silent {σ : Type} (f : σ → Byte → σ × Event) (ok : σ → Prop) : σ → List Byte → σ → Prop
  | nil (a : σ) : Silent f ok a [] a
  | cons {a a' c : σ} {b : Byte} {bs : List Byte} :
      ok a → f a b = (a', .none) → Silent f ok a' bs c → Silent f ok a (b :: bs) c

section Silent

variable {σ : Type} {f : σ → Byte → σ × Event} {ok : σ → Prop} {a c d : σ} {b : Byte} {bs bs' : List Byte}

theorem Silent.single (hok : ok a) (h : f a b = (c, .none)) : Silent f ok a [b] c := .cons hok h (.nil c)

theorem Silent.append (h : Silent f ok a bs c) (h' : Silent f ok c bs' d) : Silent f ok a (bs ++ bs') d := by
  induction h with
  | nil => exact h'
  | cons hok hf _ ih => exact .cons hok hf (ih h')

end Silent

variable {s t : State} {cfg : Config} {bs rest : List Byte} {ts : List Turn}

/-- The run of a step and then `n` more. -/
theorem run_add_one {n : Nat} {u : State} (h : Sys2Proof.core.run n s = .next u) (hs : step u = .next t) :
    Sys2Proof.core.run (n + 1) s = .next t := by
  rw [run_add h, run_succ_of_step hs, run_zero]

/-! ## The parser -/

/-- One parser turn in a state in which the parser is ready. -/
theorem step_parsed {b : Byte} (g : s.cfg.Good) (hc : s.calls = []) (hr : s.p.Ready s.cfg) (hs : s.sched = .parser :: ts)
    (hrx : s.cmdRx = b :: rest) :
    step s = .next (State.parsed { s with sched := ts, cmdRx := rest } (parseStep s.cfg s.p b)) :=
  (step_parser hc hs hrx).trans (exec_decodeCmdByte (s := { s with sched := ts, cmdRx := rest }) g hr b)

/-- Bytes without an event change nothing but `P`, the event, and the bytes and turns they take. -/
theorem run_parser_silent (g : cfg.Good) {p p' : Parser} (h : Silent (parseStep cfg) (·.Ready cfg) p bs p')
    (hcfg : s.cfg = cfg) (hp : s.p = p) (hc : s.calls = []) (hrx : s.cmdRx = bs ++ rest)
    (hs : s.sched = turns bs.length .parser ts) :
    ∃ e, Sys2Proof.core.run bs.length s = .next { s with p := p', cmdRx := rest, sched := ts, event := e } := by
  induction h generalizing s with
  | nil a =>
    subst hp hrx hs
    exact ⟨s.event, rfl⟩
  | @cons a a' c b bs hok hf _ ih =>
    subst hcfg hp
    rw [List.length_cons, turns_succ] at hs
    have hstep := step_parsed g hc hok hs hrx
    rw [hf, State.parsed_none] at hstep
    obtain ⟨e, he⟩ := ih (s := { s with sched := _, cmdRx := bs ++ rest, p := a', event := .none }) rfl rfl hc rfl rfl
    exact ⟨e, (run_succ_of_step hstep).trans he⟩

/-! ### A frame -/

variable {p : Parser} {q : List Byte} {c : Command}

/-- In the states that look nothing up and index nothing the parser is always ready. -/
theorem Parser.ready_of_st (h : p.st ≠ .len ∧ p.st ≠ .payload ∧ p.st ≠ .chkLo) : p.Ready cfg where
  listed hst := by
    obtain hst | hst := hst
    · exact absurd hst h.1
    · exact absurd hst h.2.2
  idx_lt hst := absurd hst h.2.1
  len_le hst := absurd hst h.2.2

theorem Parser.ready_of_len (hst : p.st = .len) (hc : cfg.command? p.cmd = some c) : p.Ready cfg where
  listed _ := by rw [hc]; rfl
  idx_lt h := by rw [hst] at h; cases h
  len_le h := by rw [hst] at h; cases h

theorem Parser.ready_of_payload (hst : p.st = .payload) (hi : p.idx.toNat < cfg.maxPayload) : p.Ready cfg where
  listed h := by rw [hst] at h; obtain h | h := h <;> cases h
  idx_lt _ := hi
  len_le h := by rw [hst] at h; cases h

theorem toNat_lenByte (h : q.length ≤ 255) : (lenByte q).toNat = q.length := by
  rw [lenByte, BitVec.toNat_ofNat]
  exact Nat.mod_eq_of_lt (by omega)

theorem lenByte_eq_zero_iff (h : q.length ≤ 255) : lenByte q = 0 ↔ q = [] := by
  rw [← List.length_eq_zero_iff, ← toNat_lenByte h]
  exact BitVec.toNat_eq

/-- From either sync state the sync pair leads to `CMD` (R131, R132). -/
theorem silent_sync (g : cfg.Good) (hst : p.st = .sync0 ∨ p.st = .sync1) :
    Silent (parseStep cfg) (·.Ready cfg) p [cfg.syncHi, cfg.syncLo] { p with st := .cmd } := by
  have first : parseStep cfg p cfg.syncHi = ({ p with st := .sync1 }, .none) := by
    obtain hst | hst := hst
    · rw [parseStep_sync0 hst, if_pos rfl]
    · rw [parseStep_sync1 hst, if_neg g.sync_ne, if_pos rfl]
  have second : parseStep cfg { p with st := .sync1 } cfg.syncLo = ({ p with st := .cmd }, .none) := by
    rw [parseStep_sync1 rfl, if_pos rfl]
  have hr : p.Ready cfg := Parser.ready_of_st (by obtain hst | hst := hst <;> simp [hst])
  exact .cons hr first (.single (Parser.ready_of_st (by simp)) second)

/-- The payload bytes are folded, counted, and stored one after the other (R135). -/
theorem silent_payload (hst : p.st = .payload) (hmax : p.len.toNat ≤ cfg.maxPayload) (hq : q ≠ [])
    (hidx : p.idx.toNat + q.length = p.len.toNat) :
    ∃ m : Memory,
      Silent (parseStep cfg) (·.Ready cfg) p q
        { p with st := .chkHi, idx := p.len, computed := q.foldl (fStep cfg) p.computed, buf := m } ∧
      m.pbufBytes p.len.toNat = p.buf.pbufBytes p.idx.toNat ++ q := by
  induction q generalizing p with
  | nil => exact absurd rfl hq
  | cons b q ih =>
    rw [List.length_cons] at hidx
    have hsucc : (p.idx + 1).toNat = p.idx.toNat + 1 := by
      have := p.len.isLt
      rw [BitVec.toNat_add]
      exact Nat.mod_eq_of_lt (by simp; omega)
    have hready : p.Ready cfg := Parser.ready_of_payload hst (by omega)
    by_cases hlast : q = []
    · subst hlast
      have hend : p.idx + 1 = p.len := BitVec.eq_of_toNat_eq (hsucc.trans hidx)
      refine ⟨p.buf.write p.idx.toNat b, .single hready ?_, ?_⟩
      · rw [parseStep_payload hst, if_pos hend, hend]
        rfl
      · rw [← hidx]
        exact Memory.pbufBytes_append _
    · have hmore : p.idx + 1 ≠ p.len := by
        intro h
        rw [← h, hsucc] at hidx
        exact hlast (List.length_eq_zero_iff.mp (by omega))
      have hfirst := parseStep_payload (cfg := cfg) (b := b) hst
      rw [if_neg hmore] at hfirst
      obtain ⟨m, hm, hbytes⟩ := ih (p := (parseStep cfg p b).1) (by rw [hfirst]) (by rw [hfirst]; exact hmax) hlast
        (by rw [hfirst]; show (p.idx + 1).toNat + q.length = p.len.toNat; omega)
      rw [hfirst] at hm hbytes
      refine ⟨m, .cons hready hfirst hm, ?_⟩
      rw [hsucc, Memory.pbufBytes_append, List.append_assoc] at hbytes
      exact hbytes

/-- `P` before the low checksum byte of the frame of `c` and `q`, once its high checksum byte was `h`. -/
structure Parser.Holds (cfg : Config) (c : Command) (q : List Byte) (h : Byte) (p : Parser) : Prop where
  st : p.st = .chkLo
  cmd : p.cmd = cfg.id c
  len : p.len = lenByte q
  computed : p.computed = fletcher cfg ([cfg.id c, lenByte q] ++ q)
  rx : hi p.rx = h
  buf : p.buf.pbufBytes q.length = q

/-- Length and payload of a frame, its command byte accepted (R134, R135). -/
theorem silent_lenPayload (hst : p.st = .len) (hc : cfg.command? p.cmd = some c) (hq : q.length ≤ 255)
    (hv : validLen cfg c (lenByte q) = true) :
    ∃ m : Memory,
      Silent (parseStep cfg) (·.Ready cfg) p (lenByte q :: q)
        { p with st := .chkHi, len := lenByte q, idx := lenByte q,
                 computed := (lenByte q :: q).foldl (fStep cfg) p.computed, buf := m } ∧
      m.pbufBytes q.length = q := by
  have hready : p.Ready cfg := Parser.ready_of_len hst hc
  have hfirst := parseStep_len (cfg := cfg) (b := lenByte q) hst hc
  rw [if_pos hv] at hfirst
  by_cases hempty : q = []
  · have hzero : lenByte q = 0 := (lenByte_eq_zero_iff hq).mpr hempty
    rw [if_pos hzero] at hfirst
    refine ⟨p.buf, .cons hready hfirst ?_, by rw [hempty]; rfl⟩
    subst hempty
    exact .nil _
  · have hpos : lenByte q ≠ 0 := fun h => hempty ((lenByte_eq_zero_iff hq).mp h)
    rw [if_neg hpos] at hfirst
    obtain ⟨m, hm, hbytes⟩ := silent_payload (cfg := cfg) (q := q) (p := (parseStep cfg p (lenByte q)).1)
      (by rw [hfirst]) (by rw [hfirst]; exact (validLen_iff.mp hv).1) hempty
      (by rw [hfirst]; show (0 : Byte).toNat + _ = (lenByte q).toNat; rw [toNat_lenByte hq]; exact Nat.zero_add _)
    rw [hfirst] at hm hbytes
    exact ⟨m, .cons hready hfirst hm, by rw [← toNat_lenByte hq]; exact hbytes⟩

/-- A frame but for its low checksum byte causes no event, and `P` then holds it (R131 to R136). -/
theorem silent_frame (g : cfg.Good) (hst : p.st = .sync0 ∨ p.st = .sync1) (hq : q.length ≤ 255)
    (hv : validLen cfg c (lenByte q) = true) (h : Byte) :
    ∃ p', Silent (parseStep cfg) (·.Ready cfg) p ([cfg.syncHi, cfg.syncLo, cfg.id c, lenByte q] ++ q ++ [h]) p' ∧
      p'.Holds cfg c q h := by
  have accepted : Silent (parseStep cfg) (·.Ready cfg) { p with st := .cmd } [cfg.id c]
      { p with st := .len, cmd := cfg.id c, computed := fStep cfg 0 (cfg.id c) } :=
    .single (Parser.ready_of_st (by simp)) (parseStep_cmd_listed rfl (g.command?_id c))
  obtain ⟨m, hbody, hbytes⟩ := silent_lenPayload (cfg := cfg) (q := q) (c := c)
    (p := { p with st := .len, cmd := cfg.id c, computed := fStep cfg 0 (cfg.id c) }) rfl (g.command?_id c) hq hv
  have hhigh := Silent.single (f := parseStep cfg) (ok := (·.Ready cfg)) (b := h)
    (a := { p with st := .chkHi, cmd := cfg.id c, len := lenByte q, idx := lenByte q, buf := m,
                   computed := (lenByte q :: q).foldl (fStep cfg) (fStep cfg 0 (cfg.id c)) })
    (Parser.ready_of_st (by simp)) (parseStep_chkHi rfl)
  refine ⟨_, (((silent_sync g hst).append accepted).append hbody).append hhigh, ?_⟩
  exact {
    st := rfl
    cmd := rfl
    len := rfl
    computed := by
      simp only [fletcher, g.seed_zero, List.cons_append, List.nil_append, List.foldl_cons]
    rx := hi_cat h _
    buf := hbytes }

/-- What `P` holds is ready for its last byte. -/
theorem Parser.Holds.ready (g : cfg.Good) {h : Byte} (hp : p.Holds cfg c q h) (hv : validLen cfg c (lenByte q) = true) :
    p.Ready cfg where
  listed _ := by rw [hp.cmd, g.command?_id]; rfl
  idx_lt hst := by rw [hp.st] at hst; cases hst
  len_le _ := by rw [hp.len]; exact (validLen_iff.mp hv).1

/-- The low checksum byte of the frame `P` holds (R137): the right one dispatches it, any other is a mismatch. -/
theorem Parser.Holds.parseStep {h l : Byte} (hp : p.Holds cfg c q h) (hq : q.length ≤ 255) :
    parseStep cfg p l =
      (p.preset, if cat h l = fletcher cfg ([cfg.id c, lenByte q] ++ q) then .dispatch (cfg.id c) (lenByte q) q
        else .error cfg.errChecksum) := by
  rw [parseStep_chkLo hp.st, hp.rx, hp.computed, hp.cmd, hp.len, toNat_lenByte hq, hp.buf]

/-- The run over a whole frame with the checksum bytes `h` and `l`: up to the last byte nothing but `P` and the event changes,
and the last byte is R137 on the frame `P` holds. -/
theorem run_frame (g : s.cfg.Good) (hc : s.calls = []) (hst : s.p.st = .sync0 ∨ s.p.st = .sync1)
    (hq : q.length ≤ 255) (hv : validLen s.cfg c (lenByte q) = true) {h l : Byte}
    (hrx : s.cmdRx = [s.cfg.syncHi, s.cfg.syncLo, s.cfg.id c, lenByte q] ++ q ++ [h, l] ++ rest)
    (hs : s.sched = turns (6 + q.length) .parser ts) :
    ∃ (p' : Parser) (e : Event),
      Sys2Proof.core.run (6 + q.length) s =
        .next (State.parsed { s with p := p', cmdRx := rest, sched := ts, event := e }
          (p'.preset, if cat h l = fletcher s.cfg ([s.cfg.id c, lenByte q] ++ q)
            then .dispatch (s.cfg.id c) (lenByte q) q else .error s.cfg.errChecksum)) := by
  obtain ⟨p', hsilent, hp'⟩ := silent_frame g hst hq hv h
  have hlen : ([s.cfg.syncHi, s.cfg.syncLo, s.cfg.id c, lenByte q] ++ q ++ [h]).length = 5 + q.length := by
    simp only [List.length_append, List.length_cons, List.length_nil]
    omega
  have hcount : 6 + q.length = (5 + q.length) + 1 := by omega
  obtain ⟨e, hrun⟩ := run_parser_silent (s := s) (rest := l :: rest) (ts := .parser :: ts) g hsilent rfl rfl hc
    (by simpa using hrx) (by rw [hs, hlen, hcount, turns_add]; rfl)
  have hlast := step_parsed (s := { s with p := p', cmdRx := l :: rest, sched := .parser :: ts, event := e }) (b := l)
    (rest := rest) (ts := ts) g hc (hp'.ready g hv) rfl rfl
  rw [hp'.parseStep hq] at hlast
  rw [hlen] at hrun
  exact ⟨p', e, by rw [hcount]; exact run_add_one hrun hlast⟩

/-- A valid frame, from either sync state, is dispatched as given, and its bytes and turns are taken (R142). -/
theorem run_commandFrame (g : s.cfg.Good) (hc : s.calls = []) (hst : s.p.st = .sync0 ∨ s.p.st = .sync1)
    (hq : q.length ≤ 255) (hv : validLen s.cfg c (lenByte q) = true)
    (hrx : s.cmdRx = commandFrame s.cfg (s.cfg.id c) q ++ rest) (hs : s.sched = turns (6 + q.length) .parser ts) :
    ∃ t : State, Sys2Proof.core.run (6 + q.length) s = .next t ∧
      t.dispatches = s.dispatches ++ [⟨s.cfg.id c, lenByte q, q⟩] ∧ t.p.st = .sync0 ∧ t.cmdRx = rest ∧ t.sched = ts ∧
      t.cfg = s.cfg ∧ t.calls = s.calls := by
  obtain ⟨p', e, hrun⟩ := run_frame g hc hst hq hv (h := hi (fletcher s.cfg ([s.cfg.id c, lenByte q] ++ q)))
    (l := lo (fletcher s.cfg ([s.cfg.id c, lenByte q] ++ q))) (by simpa [commandFrame, framed] using hrx) hs
  have hdispatch := State.parsed_dispatch (s := { s with p := p', cmdRx := rest, sched := ts, event := e }) (n := lenByte q)
    (q := q) (g.command?_id c) p'.preset
  rw [if_pos (cat_hi_lo _), hdispatch] at hrun
  exact ⟨_, hrun, by simp⟩

/-- Settles O51, by induction on the list of frames: each is run by `run_commandFrame`, which leaves the parser in `SYNC0`
before the next. -/
theorem backToBackFramesAreDispatched : Obligations.BackToBackFramesAreDispatched := by
  intro frames
  induction frames with
  | nil =>
    intro s rest ts _ _ hst _ hrx hs
    exact ⟨s, rfl, by simp, hst, hrx, hs⟩
  | cons f frames ih =>
    intro s rest ts hwf hc hst hvalid hrx hs
    obtain ⟨hq, hv⟩ := hvalid f List.mem_cons_self
    rw [List.flatMap_cons, List.append_assoc] at hrx
    rw [List.map_cons, List.sum_cons, turns_add] at hs
    obtain ⟨u, hrun, hdisp, hust, hurx, hus, hucfg, hucalls⟩ :=
      run_commandFrame (Config.good_of_wf hwf) hc (.inl hst) hq hv hrx hs
    obtain ⟨t, hrun', hdisp', htst, htrx, hts⟩ := ih u rest ts (hucfg ▸ hwf) (hucalls.trans hc) hust
      (fun f' hf' => hucfg ▸ hvalid f' (List.mem_cons_of_mem f hf')) (hucfg ▸ hurx) hus
    refine ⟨t, ?_, ?_, htst, htrx, hts⟩
    · rw [List.map_cons, List.sum_cons, run_add hrun, hrun']
    · rw [hdisp', hdisp, hucfg, List.map_cons, List.append_assoc]
      rfl

/-- Settles O53: the frame is held up to its last byte, and a checksum that is not the computed one is `ChecksumMismatch`. -/
theorem wrongChecksumGivesOneErrorReply : Obligations.WrongChecksumGivesOneErrorReply := by
  intro s q rest c h l ts hwf hc hst hq hv hsum hrx hs
  have g := Config.good_of_wf hwf
  obtain ⟨p', e, hrun⟩ := run_frame g hc (.inl hst) hq hv hrx hs
  rw [if_neg hsum, State.parsed_error] at hrun
  exact ⟨_, hrun, rfl, rfl, rfl, rfl, rfl, rfl⟩

/-! ### Noise -/

/-- Bytes without the adjacent sync pair move the parser between the two sync states; in `SYNC1` the byte before them counts
as the first sync byte. -/
theorem silent_noise {noise : List Byte}
    (h : (p.st = .sync0 ∧ ¬ [cfg.syncHi, cfg.syncLo] <:+: noise) ∨
      (p.st = .sync1 ∧ ¬ [cfg.syncHi, cfg.syncLo] <:+: cfg.syncHi :: noise)) :
    ∃ st, (st = .sync0 ∨ st = .sync1) ∧ Silent (parseStep cfg) (·.Ready cfg) p noise { p with st := st } := by
  induction noise generalizing p with
  | nil =>
    refine ⟨p.st, h.imp And.left And.left, .nil p⟩
  | cons b noise ih =>
    have hready : p.Ready cfg := Parser.ready_of_st (by obtain ⟨hst, -⟩ | ⟨hst, -⟩ := h <;> simp [hst])
    have step : ∃ st, parseStep cfg p b = ({ p with st := st }, .none) ∧
        ((st = .sync0 ∧ ¬ [cfg.syncHi, cfg.syncLo] <:+: noise) ∨
          (st = .sync1 ∧ ¬ [cfg.syncHi, cfg.syncLo] <:+: cfg.syncHi :: noise)) := by
      obtain ⟨hst, hn⟩ | ⟨hst, hn⟩ := h
      · by_cases hb : b = cfg.syncHi
        · exact ⟨.sync1, by rw [parseStep_sync0 hst, if_pos hb], .inr ⟨rfl, hb ▸ hn⟩⟩
        · refine ⟨.sync0, by rw [parseStep_sync0 hst, if_neg hb, ← hst], .inl ⟨rfl, fun hi => hn (hi.trans ?_)⟩⟩
          exact List.infix_cons_iff.mpr (.inr List.infix_rfl)
      · have hlo : b ≠ cfg.syncLo := fun hb => hn (hb ▸ List.IsPrefix.isInfix ⟨noise, rfl⟩)
        have htail : ¬ [cfg.syncHi, cfg.syncLo] <:+: b :: noise := fun hi =>
          hn (hi.trans (List.infix_cons_iff.mpr (.inr List.infix_rfl)))
        by_cases hb : b = cfg.syncHi
        · exact ⟨.sync1, by rw [parseStep_sync1 hst, if_neg hlo, if_pos hb], .inr ⟨rfl, hb ▸ htail⟩⟩
        · refine ⟨.sync0, by rw [parseStep_sync1 hst, if_neg hlo, if_neg hb], .inl ⟨rfl, fun hi => htail (hi.trans ?_)⟩⟩
          exact List.infix_cons_iff.mpr (.inr List.infix_rfl)
    obtain ⟨st, hstep, hst⟩ := step
    obtain ⟨st', hst', hsilent⟩ := ih (p := { p with st := st }) hst
    exact ⟨st', hst', .cons hready hstep hsilent⟩

/-- Settles O52: the noise leaves the parser in one of the two sync states, and from either the frame is dispatched. -/
theorem leadingNoiseIsHarmless : Obligations.LeadingNoiseIsHarmless := by
  intro s noise q rest c ts hwf hc hst hnoise hq hv hrx hs
  have g := Config.good_of_wf hwf
  obtain ⟨st, hsync, hsilent⟩ := silent_noise (.inl ⟨hst, hnoise⟩)
  rw [List.append_assoc] at hrx
  rw [turns_add] at hs
  obtain ⟨e, hrun⟩ := run_parser_silent g hsilent rfl rfl hc hrx hs
  obtain ⟨t, hrun', hdisp, htst, htrx, hts, -, -⟩ := run_commandFrame
    (s := { s with p := { s.p with st := st }, cmdRx := commandFrame s.cfg (s.cfg.id c) q ++ rest,
                   sched := turns (6 + q.length) .parser ts, event := e }) g hc hsync hq hv rfl rfl
  exact ⟨_, t, hrun, rfl, rfl, rfl, hrun', hdisp, htst, htrx, hts⟩

/-! ## The KISS decoder -/

/-- A length that meets no stop: within the buffer, and no more than a reply can carry. -/
def Kiss.Fits (cfg : Config) (k : Kiss) : Prop := k.len ≤ cfg.kissCap ∧ k.len ≤ 256

/-- One decoder turn at a length that meets no stop. -/
theorem step_decoded {b : Byte} (hc : s.calls = []) (hk : s.k.Fits s.cfg) (hs : s.sched = .decoder :: ts)
    (hrx : s.kissRx = b :: rest) :
    step s = .next (State.decoded { s with sched := ts, kissRx := rest } (kdecStep s.cfg s.k b)) :=
  (step_decoder hc hs hrx).trans (exec_decodeKissByte_of_le (s := { s with sched := ts, kissRx := rest }) hk.1 hk.2 b)

/-- Bytes without an event change nothing but `K`, the event, and the bytes and turns they take. -/
theorem run_decoder_silent {k k' : Kiss} (h : Silent (kdecStep cfg) (·.Fits cfg) k bs k') (hcfg : s.cfg = cfg)
    (hk : s.k = k) (hc : s.calls = []) (hrx : s.kissRx = bs ++ rest) (hs : s.sched = turns bs.length .decoder ts) :
    ∃ e, Sys2Proof.core.run bs.length s = .next { s with k := k', kissRx := rest, sched := ts, event := e } := by
  induction h generalizing s with
  | nil a =>
    subst hk hrx hs
    exact ⟨s.event, rfl⟩
  | @cons a a' c b bs hok hf _ ih =>
    subst hcfg hk
    rw [List.length_cons, turns_succ] at hs
    have hstep := step_decoded hc hok hs hrx
    rw [hf, State.decoded_none] at hstep
    obtain ⟨e, he⟩ := ih (s := { s with sched := _, kissRx := bs ++ rest, k := a', event := .none }) rfl rfl hc rfl rfl
    exact ⟨e, (run_succ_of_step hstep).trans he⟩

/-! ### A KISS frame -/

variable {m : Memory} {n : Nat} {b : Byte}

theorem kissAppend_room {esc drop : Bool} (h : n < cfg.kissCap) :
    kissAppend cfg ⟨m, n, esc, drop⟩ b = (⟨m.write n b, n + 1, esc, drop⟩, .none) := if_neg (Nat.ne_of_lt h)

/-- A buffer with the command byte alone holds an empty payload (R118). -/
theorem Memory.kbufPayload_one : m.kbufPayload 1 = [] := rfl

/-- The start of a frame, whatever the drop flag: the delimiter clears it, the command byte is stored (R111, R116). -/
theorem silent_kencStart (g : cfg.Good) (hcap : 0 < cfg.kissCap) (drop : Bool) :
    Silent (kdecStep cfg) (·.Fits cfg) ⟨m, 0, false, drop⟩ (kencStart cfg)
      ⟨m.write 0 cfg.kissCmdData, 1, false, false⟩ := by
  have hpad : kdecStep cfg ⟨m, 0, false, drop⟩ cfg.fend = (⟨m, 0, false, false⟩, .none) := kdecStep_padding rfl
  have hdata : kdecStep cfg ⟨m, 0, false, false⟩ cfg.kissCmdData =
      (⟨m.write 0 cfg.kissCmdData, 1, false, false⟩, .none) := by
    rw [kdecStep_of_ne_fend g.data_fend]
    simp only [Bool.false_eq_true, if_false, if_neg g.data_fesc]
    exact kissAppend_room hcap
  have hfits : ∀ d, Kiss.Fits cfg ⟨m, 0, false, d⟩ := fun _ => ⟨Nat.zero_le _, Nat.zero_le _⟩
  exact .cons (hfits drop) hpad (.single (hfits false) hdata)

/-- An encoded payload byte is stored as the byte it stands for (R101 against R114, R116). -/
theorem silent_kesc (g : cfg.Good) (hcap : n < cfg.kissCap) (hlen : n ≤ 256) (b : Byte) :
    Silent (kdecStep cfg) (·.Fits cfg) ⟨m, n, false, false⟩ (kesc cfg b) ⟨m.write n b, n + 1, false, false⟩ := by
  have hfits : ∀ e, Kiss.Fits cfg ⟨m, n, e, false⟩ := fun _ => ⟨hcap.le, hlen⟩
  have hescape : kdecStep cfg ⟨m, n, false, false⟩ cfg.fesc = (⟨m, n, true, false⟩, .none) := by
    rw [kdecStep_of_ne_fend g.fend_fesc.symm]
    simp only [Bool.false_eq_true, if_false, if_true]
    rfl
  by_cases hfend : b = cfg.fend
  · subst hfend
    have hcode : kdecStep cfg ⟨m, n, true, false⟩ cfg.tfend = (⟨m.write n cfg.fend, n + 1, false, false⟩, .none) := by
      rw [kdecStep_of_ne_fend g.fend_tfend.symm]
      simp only [Bool.false_eq_true, if_false, if_true]
      exact kissAppend_room hcap
    rw [kesc_fend]
    exact .cons (hfits false) hescape (.single (hfits true) hcode)
  by_cases hfesc : b = cfg.fesc
  · subst hfesc
    have hcode : kdecStep cfg ⟨m, n, true, false⟩ cfg.tfesc = (⟨m.write n cfg.fesc, n + 1, false, false⟩, .none) := by
      rw [kdecStep_of_ne_fend g.fend_tfesc.symm]
      simp only [Bool.false_eq_true, if_false, if_true, if_neg g.tfend_tfesc.symm]
      exact kissAppend_room hcap
    rw [kesc_fesc g.fend_fesc]
    exact .cons (hfits false) hescape (.single (hfits true) hcode)
  · have hlit : kdecStep cfg ⟨m, n, false, false⟩ b = (⟨m.write n b, n + 1, false, false⟩, .none) := by
      rw [kdecStep_of_ne_fend hfend]
      simp only [Bool.false_eq_true, if_false, if_neg hfesc]
      exact kissAppend_room hcap
    rw [kesc_literal hfend hfesc]
    exact .single (hfits false) hlit

/-- The encoded payload is stored after the command byte, which stays (R117). -/
theorem silent_kescs (g : cfg.Good) (hpos : 0 < n) (hcap : n + q.length ≤ cfg.kissCap) (hlen : n + q.length ≤ 256) :
    ∃ m' : Memory,
      Silent (kdecStep cfg) (·.Fits cfg) ⟨m, n, false, false⟩ (q.flatMap (kesc cfg)) ⟨m', n + q.length, false, false⟩ ∧
      m'.kbufPayload (n + q.length) = m.kbufPayload n ++ q ∧ m'.readKbuf 0 = m.readKbuf 0 := by
  induction q generalizing m n with
  | nil => exact ⟨m, .nil _, by simp, rfl⟩
  | cons b q ih =>
    rw [List.length_cons] at hcap hlen
    obtain ⟨m', hm', hpay, hzero⟩ := ih (m := m.write n b) (n := n + 1) (by omega) (by omega) (by omega)
    have hcount : n + (b :: q).length = n + 1 + q.length := by
      rw [List.length_cons]
      omega
    refine ⟨m', ?_, ?_, ?_⟩
    · rw [hcount, List.flatMap_cons]
      exact (silent_kesc g (by omega) (by omega) b).append hm'
    · rw [hcount, hpay, Memory.kbufPayload_append hpos, List.append_assoc]
      rfl
    · rw [hzero, Memory.readKbuf_write_ne hpos.ne']

/-- Settles O50: the delimiter and command byte start the frame, the encoded payload is stored as the payload, and the closing
delimiter delivers it. -/
theorem kissRoundTrip : Obligations.KissRoundTrip := by
  intro s p rest ts hwf hc hlen hesc hcap hp hrx hs
  have g := Config.good_of_wf hwf
  obtain ⟨m, hsilent, hpay, hzero⟩ := silent_kescs (m := s.k.buf.write 0 s.cfg.kissCmdData) (n := 1) g Nat.one_pos hcap
    (by omega)
  have hopen := (silent_kencStart (m := s.k.buf) g (by omega) s.k.drop).append hsilent
  have hk : s.k = ⟨s.k.buf, 0, false, s.k.drop⟩ := by rw [← hlen, ← hesc]
  have hkenc : kenc s.cfg p = (kencStart s.cfg ++ p.flatMap (kesc s.cfg)) ++ [s.cfg.fend] := rfl
  rw [hkenc, List.append_assoc] at hrx
  rw [hkenc, List.length_append, turns_add] at hs
  obtain ⟨e, hrun⟩ := run_decoder_silent hopen rfl hk hc hrx hs
  have hlast := step_decoded (b := s.cfg.fend) (rest := rest) (ts := ts)
    (s := { s with k := ⟨m, 1 + p.length, false, false⟩, kissRx := s.cfg.fend :: rest, sched := .decoder :: ts, event := e })
    hc ⟨hcap, by show 1 + p.length ≤ 256; omega⟩ rfl rfl
  have hend : kdecStep s.cfg ⟨m, 1 + p.length, false, false⟩ s.cfg.fend =
      (⟨m, 0, false, false⟩, .rxframe p) := by
    rw [kdecStep_fend (Nat.ne_of_gt (by simp))]
    simp [hzero, hpay, Kiss.clear, Memory.kbufPayload_one]
  rw [hend] at hlast
  rw [hkenc, List.length_append]
  exact ⟨_, run_add_one hrun hlast, rfl, rfl, rfl, rfl, rfl, rfl, rfl, rfl, rfl⟩

end Sys2Proof.Machine
end

section
/-! PROOFS. What a step appends to the outputs (R26, R49, R209): whole replies on `CMD_TX`, whole writes on `KISS_TX`, and the
dispatches it makes. Said once, for every instruction, by `exec_emits`. -/

namespace Sys2Proof.Machine

variable {s t u : State} {cfg : Config}

/-- The two forms of frame the Reply Encoder makes (R180 to R182). -/
def EncodedReply (cfg : Config) (fr : List Byte) : Prop :=
  (∃ st c q, q.length ≤ 255 ∧ fr = replyFrame cfg st c q) ∨ ∃ st e, fr = errReplyFrame cfg st e

/-- `t` is `s` with something appended to its outputs, on `CMD_TX` encoded replies. -/
structure Emits (s t : State) : Prop where
  cfg : t.cfg = s.cfg
  cmdTx : ∃ frs : List (List Byte), (∀ fr ∈ frs, EncodedReply s.cfg fr) ∧ t.cmdTx = s.cmdTx ++ frs.flatten
  kissTx : s.kissTx <+: t.kissTx
  dispatches : s.dispatches <+: t.dispatches

/-! ## The forms of emission -/

/-- No reply: what `CMD_TX` held. -/
theorem Emits.of_silent (hcfg : t.cfg = s.cfg) (hcmd : t.cmdTx = s.cmdTx) (hkiss : s.kissTx <+: t.kissTx)
    (hdisp : s.dispatches <+: t.dispatches) : Emits s t where
  cfg := hcfg
  cmdTx := ⟨[], by simp, by simp [hcmd]⟩
  kissTx := hkiss
  dispatches := hdisp

/-- One reply. -/
theorem Emits.of_reply {fr : List Byte} (hcfg : t.cfg = s.cfg) (hfr : EncodedReply s.cfg fr)
    (hcmd : t.cmdTx = s.cmdTx ++ fr) (hkiss : s.kissTx <+: t.kissTx) (hdisp : s.dispatches <+: t.dispatches) :
    Emits s t where
  cfg := hcfg
  cmdTx := ⟨[fr], by simpa using hfr, by simp [hcmd]⟩
  kissTx := hkiss
  dispatches := hdisp

/-- Nothing at all. -/
theorem Emits.of_eq (hcfg : t.cfg = s.cfg) (hcmd : t.cmdTx = s.cmdTx) (hkiss : t.kissTx = s.kissTx)
    (hdisp : t.dispatches = s.dispatches) : Emits s t :=
  .of_silent hcfg hcmd (hkiss ▸ List.prefix_rfl) (hdisp ▸ List.prefix_rfl)

theorem Emits.refl (s : State) : Emits s s := .of_eq rfl rfl rfl rfl

theorem Emits.trans (h : Emits s t) (h' : Emits t u) : Emits s u := by
  obtain ⟨frs, hfrs, hcmd⟩ := h.cmdTx
  obtain ⟨frs', hfrs', hcmd'⟩ := h'.cmdTx
  refine ⟨h'.cfg.trans h.cfg, ⟨frs ++ frs', ?_, ?_⟩, h.kissTx.trans h'.kissTx, h.dispatches.trans h'.dispatches⟩
  · intro fr hfr
    obtain hfr | hfr := List.mem_append.mp hfr
    · exact hfrs fr hfr
    · exact h.cfg ▸ hfrs' fr hfr
  · rw [hcmd', hcmd, List.flatten_append, List.append_assoc]

/-- What is emitted after a change of other fields alone. -/
theorem Emits.after (h : Emits u t) (hcfg : u.cfg = s.cfg) (hcmd : u.cmdTx = s.cmdTx) (hkiss : u.kissTx = s.kissTx)
    (hdisp : u.dispatches = s.dispatches) : Emits s t := .trans (.of_eq hcfg hcmd hkiss hdisp) h

/-! ## The shared operations -/

/-- What a handler's reply puts on `CMD_TX` (R173): nothing, one success reply to the command's own id, or one error reply. -/
theorem replyBytes_cases (cfg : Config) (c : Command) (h : Handled) :
    replyBytes cfg c h = [] ∨
    (∃ st q, q.length ≤ 255 ∧ replyBytes cfg c h = replyFrame cfg st (cfg.id c) q) ∨
    (∃ st e, replyBytes cfg c h = errReplyFrame cfg st (cfg.errCode e)) := by
  unfold replyBytes
  cases h.reply with
  | none => exact .inl rfl
  | some r =>
    cases r with
    | success q => exact .inr (.inl ⟨h.replyStatus, q.val, q.property, rfl⟩)
    | failure e => exact .inr (.inr ⟨h.replyStatus, e, rfl⟩)

theorem State.handle_emits (s : State) (c : Command) (q : List Byte) : Emits s (s.handle c q) := by
  have hkiss : s.kissTx <+: (s.handle c q).kissTx := by
    rw [State.handle_kissTx]
    exact List.prefix_append _ _
  have hdisp : s.dispatches <+: (s.handle c q).dispatches := by rw [State.handle_dispatches]
  have hcmd := s.handle_cmdTx c q
  obtain hr | ⟨st, q', hq', hr⟩ | ⟨st, e, hr⟩ := replyBytes_cases s.cfg c (handler s.cfg c q s.env s.response)
  · rw [hr, List.append_nil] at hcmd
    exact .of_silent (s.handle_cfg c q) hcmd hkiss hdisp
  · rw [hr] at hcmd
    exact .of_reply (s.handle_cfg c q) (.inl ⟨st, s.cfg.id c, q', hq', rfl⟩) hcmd hkiss hdisp
  · rw [hr] at hcmd
    exact .of_reply (s.handle_cfg c q) (.inr ⟨st, s.cfg.errCode e, rfl⟩) hcmd hkiss hdisp

theorem State.dispatch_emits (h : s.dispatch = .next t) : Emits s t := by
  obtain ⟨c, -, -, rfl⟩ := State.dispatch_next h
  have noted : ∀ n q, Emits s (s.preset.noteDispatch s.p.cmd n q) := fun _ _ =>
    .of_silent rfl rfl List.prefix_rfl (List.prefix_append _ _)
  exact (noted _ _).trans (State.handle_emits _ c _)

theorem State.raise_emits (s : State) (x : ErrorKind) : Emits s (s.raise x) :=
  .of_reply rfl (.inr ⟨s.env.status, s.cfg.errCode x, rfl⟩) rfl List.prefix_rfl List.prefix_rfl

theorem State.sendReply_emits {c : Byte} {q : List Byte} (h : s.sendReply c q = .next t) : Emits s t := by
  obtain ⟨hq, rfl⟩ := State.sendReply_next h
  exact .of_reply rfl (.inl ⟨s.env.status, c, q, hq, rfl⟩) rfl List.prefix_rfl List.prefix_rfl

theorem State.append_emits {k : Kiss} {v : Byte} (h : s.append k v = .next t) : Emits s t := by
  obtain ⟨-, rfl⟩ | ⟨-, rfl⟩ := State.append_next h
  · exact .of_eq rfl rfl rfl rfl
  · exact .of_eq rfl rfl rfl rfl

/-- An encoder operation appends its bytes to `KISS_TX` (R102). -/
theorem State.emitKiss_emits (s : State) (bs : List Byte) : Emits s ((s.emitKiss bs).setEvent .none) :=
  .of_silent rfl rfl (List.prefix_append _ _) List.prefix_rfl

theorem execSyncHi_emits {b : Byte} (h : execSyncHi b s = .next t) : Emits s t := by
  cases h
  split_ifs
  · exact .of_eq rfl rfl rfl rfl
  · exact .of_eq rfl rfl rfl rfl

theorem execLen_emits {b : Byte} (h : execLen b s = .next t) : Emits s t := by
  unfold execLen at h
  split at h
  · cases h
  · split at h
    · cases h
      exact .of_eq rfl rfl rfl rfl
    · cases h
      exact s.raise_emits .invalidLen

theorem execPayload_emits {b : Byte} (h : execPayload b s = .next t) : Emits s t := by
  unfold execPayload at h
  split at h
  · cases h
    exact .of_eq rfl rfl rfl rfl
  · cases h

theorem execChklo_emits {b : Byte} (h : execChklo b s = .next t) : Emits s t := by
  unfold execChklo at h
  split_ifs at h
  · exact State.dispatch_emits h
  · cases h
    exact s.raise_emits .checksum

theorem execFendEnd_emits (h : execFendEnd s = .next t) : Emits s t := by
  unfold execFendEnd at h
  split_ifs at h
  · cases h
    exact .of_eq rfl rfl rfl rfl
  · cases h
    exact .of_eq rfl rfl rfl rfl
  · exact (State.sendReply_emits (s := (s.setK s.k.clear).setEvent _) h).after rfl rfl rfl rfl

/-- What an instruction that goes on appends: those that test something, append, reply or encode by their own lemma; the rest
write no output. -/
theorem exec_emits {i : Instr} (h : exec i s = .next t) : Emits s t := by
  cases i with
  | invalidCmd b => cases h; exact s.raise_emits .invalidCmd
  | syncHi b => exact execSyncHi_emits h
  | len b => exact execLen_emits h
  | payload b => exact execPayload_emits h
  | chklo b => exact execChklo_emits h
  | reply c q => exact (State.sendReply_emits (s := s.setEvent .none) h).after rfl rfl rfl rfl
  | rxreply q => exact (State.sendReply_emits (s := s.setEvent .none) h).after rfl rfl rfl rfl
  | errreply e =>
    cases h
    exact .of_reply rfl (.inr ⟨s.env.status, e, rfl⟩) rfl List.prefix_rfl List.prefix_rfl
  | fendEnd => exact execFendEnd_emits h
  | tfend => exact State.append_emits h
  | tfesc => exact State.append_emits h
  | kdata b => exact State.append_emits h
  | kissCmdData => exact State.append_emits h
  | kencOpen => cases h; exact s.emitKiss_emits _
  | kescFend => cases h; exact s.emitKiss_emits _
  | kescFesc => cases h; exact s.emitKiss_emits _
  | kescLiteral b => cases h; exact s.emitKiss_emits _
  | kencClose => cases h; exact s.emitKiss_emits _
  | _ => cases h; exact .of_eq rfl rfl rfl rfl

theorem runCalls_emits {cs : List Call} (h : runCalls cs s = .next t) : Emits s t :=
  runCalls_keeps (I := Emits s) (fun _ _ _ _ ha _ hx => ha.trans (exec_emits hx)) (.refl s) h

/-- Every step that goes on only appends (R26, R49). -/
theorem step_emits (h : step s = .next t) : Emits s t := by
  obtain ⟨-, hr⟩ | ⟨-, ⟨-, rfl⟩ | ⟨_, _, -, noCmdByte | noKissByte | outside | parsed | decoded⟩⟩ := step_cases h
  · exact (runCalls_emits hr).after rfl rfl rfl rfl
  · exact .refl _
  · obtain ⟨-, -, rfl⟩ := noCmdByte
    exact .of_eq rfl rfl rfl rfl
  · obtain ⟨-, -, rfl⟩ := noKissByte
    exact .of_eq rfl rfl rfl rfl
  · obtain ⟨_, -, rfl⟩ := outside
    exact .of_eq rfl rfl rfl rfl
  · obtain ⟨_, _, -, -, hx⟩ := parsed
    exact (exec_emits hx).after rfl rfl rfl rfl
  · obtain ⟨_, _, -, -, hx⟩ := decoded
    exact (exec_emits hx).after rfl rfl rfl rfl

/-- Settles O60: what is appended stands behind what there was (`step_emits`). -/
theorem outputsOnlyGrow : Obligations.OutputsOnlyGrow := by
  intro s t h
  have hemits := step_emits h
  obtain ⟨frs, -, hcmd⟩ := hemits.cmdTx
  exact ⟨hcmd ▸ List.prefix_append _ _, hemits.kissTx, hemits.dispatches⟩

/-! ## Encoded replies are whole replies -/

/-- R61: a command byte with the reply bit, a payload its `LEN` counts. -/
theorem EncodedReply.isReply (g : cfg.Good) {fr : List Byte} (h : EncodedReply cfg fr) : IsReply cfg fr := by
  obtain ⟨st, c, q, hq, rfl⟩ | ⟨st, e, rfl⟩ := h
  · exact ⟨st, replyCmd cfg c, q, by simp [replyCmd, g.reply_bit], hq, rfl⟩
  · exact ⟨st, cfg.errReplyCmd, [e], g.err_bit7, by simp, by simp [errReplyFrame, lenByte]⟩

/-- Settles O34: a step appends encoded replies, and each is whole. -/
theorem onlyWholeRepliesAreEmitted : Obligations.OnlyWholeRepliesAreEmitted := by
  intro s t hwf hwhole h
  have hemits := step_emits h
  obtain ⟨old, hold, hcmd⟩ := hwhole
  obtain ⟨frs, hfrs, hcmd'⟩ := hemits.cmdTx
  rw [hemits.cfg]
  refine ⟨old ++ frs, ?_, by rw [hcmd', hcmd, List.flatten_append]⟩
  intro fr hfr
  obtain hfr | hfr := List.mem_append.mp hfr
  · exact hold fr hfr
  · exact (hfrs fr hfr).isReply (Config.good_of_wf hwf)

end Sys2Proof.Machine
end

section
/-! PROOFS. The agents share nothing (R25): an instruction of the parser or of a unit does the same whatever `K` is, one of
the decoder or of a unit the same whatever `P` is, and neither writes the other's state. -/

namespace Sys2Proof.Machine

variable {s t : State} {i : Instr}

/-! ## Which agent an instruction belongs to -/

theorem agent_decodeCmdByte (cfg : Config) (b : Byte) (st : ParserState) :
    Laws.agent (decodeCmdByte cfg b st) = some .parser := by
  cases st with
  | sync1 =>
    by_cases hb : b = cfg.syncHi
    · rw [decodeCmdByte_sync1_of_eq hb]
      rfl
    · rw [decodeCmdByte_sync1_of_ne hb]
      rfl
  | cmd =>
    cases hc : cfg.command? b with
    | none =>
      rw [decodeCmdByte_invalid hc]
      rfl
    | some c =>
      rw [decodeCmdByte_command hc]
      cases c <;> rfl
  | _ => rfl

theorem agent_decodeKissByte (cfg : Config) (empty drop esc : Bool) (b : Byte) :
    Laws.agent (decodeKissByte cfg empty drop esc b) = some .decoder := by
  unfold decodeKissByte
  split_ifs <;> rfl

theorem agent_decodeCall {cfg : Config} {c : Call} (h : decodeCall cfg c = .ok i) : Laws.agent i = none := by
  cases c with
  | reply c q =>
    obtain ⟨-, ⟨-, e, -, rfl⟩ | ⟨-, -, ⟨-, rfl⟩ | ⟨-, rfl⟩⟩⟩ := decodeCall_reply_ok h
    · rfl
    · rfl
    · rfl
  | kencByte b =>
    obtain rfl := Except.ok.inj h
    split_ifs <;> rfl
  | kencStart => cases h; rfl
  | kencEnd => cases h; rfl
  | engine acc c => cases h; rfl

/-- An outcome with its next state, if there is one, changed by `f`. -/
def mapNext (f : State → State) : Host.Outcome State Fault Refusal → Host.Outcome State Fault Refusal
  | .next t => .next (f t)
  | .fault r => .fault r
  | .refused r => .refused r

/-- A test that reads nothing that `f` changes is made the same way before and after. -/
theorem ite_eq_mapNext {f : State → State} {c : Prop} {inst inst' : Decidable c}
    {x y x' y' : Host.Outcome State Fault Refusal} (hx : x' = mapNext f x) (hy : y' = mapNext f y) :
    @ite _ c inst' x' y' = mapNext f (@ite _ c inst x y) := by
  by_cases h : c
  · rw [if_pos h, if_pos h, hx]
  · rw [if_neg h, if_neg h, hy]

/-! ## Whatever `K` is -/

theorem State.handle_setK (s : State) (c : Command) (q : List Byte) (k : Kiss) :
    (s.setK k).handle c q = (s.handle c q).setK k := by
  have took : (s.setK k).tookResponse = s.tookResponse.setK k := by
    unfold State.tookResponse State.setK
    cases s.responses <;> rfl
  rw [State.handle, took]
  rfl

theorem State.sendReply_setK (s : State) (c : Byte) (q : List Byte) (k : Kiss) :
    (s.setK k).sendReply c q = mapNext (·.setK k) (s.sendReply c q) := ite_eq_mapNext rfl rfl

theorem State.dispatch_setK (s : State) (k : Kiss) : (s.setK k).dispatch = mapNext (·.setK k) s.dispatch := by
  simp only [State.dispatch, State.setK_cfg, State.setK_p]
  cases s.cfg.command? s.p.cmd with
  | none => rfl
  | some c =>
    exact ite_eq_mapNext (congrArg Host.Outcome.next (State.handle_setK (State.noteDispatch s.preset _ _ _) c _ k)) rfl

/-- An instruction that is not the decoder's does the same whatever `K` is, and leaves it as it was. -/
theorem exec_setK (hi : Laws.agent i ≠ some .decoder) (s : State) (k : Kiss) :
    exec i (s.setK k) = mapNext (·.setK k) (exec i s) := by
  cases i with
  | syncHi b =>
    by_cases hb : b = s.cfg.syncHi
    · rw [exec_syncHi_of_eq hb, exec_syncHi_of_eq (s := s.setK k) hb]
      rfl
    · rw [exec_syncHi_of_ne hb, exec_syncHi_of_ne (s := s.setK k) hb]
      rfl
  | len b =>
    simp only [exec, execLen, State.setK_cfg, State.setK_p]
    cases s.cfg.command? s.p.cmd with
    | none => rfl
    | some c => exact ite_eq_mapNext rfl rfl
  | payload b => exact ite_eq_mapNext rfl rfl
  | chklo b => exact ite_eq_mapNext (State.dispatch_setK s k) rfl
  | reply c q => exact State.sendReply_setK (s.setEvent .none) _ q k
  | rxreply q => exact State.sendReply_setK (s.setEvent .none) _ q k
  | fendPad => exact absurd rfl hi
  | fendEnd => exact absurd rfl hi
  | kdrop b => exact absurd rfl hi
  | tfend => exact absurd rfl hi
  | tfesc => exact absurd rfl hi
  | badTransposed b => exact absurd rfl hi
  | fesc => exact absurd rfl hi
  | kdata b => exact absurd rfl hi
  | kissCmdData => exact absurd rfl hi
  | _ => rfl

/-! ## Whatever `P` is -/

theorem State.sendReply_setP (s : State) (c : Byte) (q : List Byte) (p : Parser) :
    (s.setP p).sendReply c q = mapNext (·.setP p) (s.sendReply c q) := ite_eq_mapNext rfl rfl

theorem State.append_setP (s : State) (k : Kiss) (v : Byte) (p : Parser) :
    (s.setP p).append k v = mapNext (·.setP p) (s.append k v) :=
  ite_eq_mapNext rfl (ite_eq_mapNext rfl rfl)

/-- An instruction that is not the parser's does the same whatever `P` is, and leaves it as it was. -/
theorem exec_setP (hi : Laws.agent i ≠ some .parser) (s : State) (p : Parser) :
    exec i (s.setP p) = mapNext (·.setP p) (exec i s) := by
  cases i with
  | fendEnd =>
    have delivered := State.sendReply_setP ((s.setK s.k.clear).setEvent (.rxframe (s.k.buf.kbufPayload s.k.len)))
      s.cfg.idRxdata (s.k.buf.kbufPayload s.k.len) p
    exact ite_eq_mapNext rfl (ite_eq_mapNext rfl (ite_eq_mapNext rfl delivered))
  | tfend => exact s.append_setP _ _ p
  | tfesc => exact s.append_setP _ _ p
  | kdata b => exact s.append_setP _ _ p
  | kissCmdData => exact s.append_setP _ _ p
  | reply c q => exact State.sendReply_setP (s.setEvent .none) _ q p
  | rxreply q => exact State.sendReply_setP (s.setEvent .none) _ q p
  | fendPad => rfl
  | kdrop b => rfl
  | badTransposed b => rfl
  | fesc => rfl
  | errreply e => rfl
  | kencOpen => rfl
  | kescFend => rfl
  | kescFesc => rfl
  | kescLiteral b => rfl
  | kencClose => rfl
  | f acc c => rfl
  | _ => exact absurd rfl hi

/-! ## Every step -/

/-- A change of the state that the configuration and the unit operations do not see runs through a sequence of them. -/
theorem runCalls_map {f : State → State} (hcfg : ∀ s, (f s).cfg = s.cfg)
    (hexec : ∀ i s, Laws.agent i = none → exec i (f s) = mapNext f (exec i s)) (cs : List Call) (s : State) :
    runCalls cs (f s) = mapNext f (runCalls cs s) := by
  induction cs generalizing s with
  | nil => rfl
  | cons c cs ih =>
    simp only [runCalls, decode, hcfg]
    cases hd : decodeCall s.cfg c with
    | error r => rfl
    | ok i =>
      simp only [hexec i s (agent_decodeCall hd)]
      cases exec i s with
      | next t => exact ih t
      | fault r => rfl
      | refused r => rfl

/-- A step that is no decoder turn does the same whatever `K` is. -/
theorem step_setK (hs : ∀ ts, s.sched ≠ .decoder :: ts) (k : Kiss) : step (s.setK k) = mapNext (·.setK k) (step s) := by
  by_cases hc : s.calls = []
  · cases hsched : s.sched with
    | nil => rw [step_idle hc hsched, step_idle (s := s.setK k) hc hsched]; rfl
    | cons u ts =>
      cases u with
      | decoder => exact absurd hsched (hs ts)
      | outside e => rw [step_outside hc hsched, step_outside (s := s.setK k) hc hsched]; rfl
      | parser =>
        cases hrx : s.cmdRx with
        | nil => rw [step_parser_empty hc hsched hrx, step_parser_empty (s := s.setK k) hc hsched hrx]; rfl
        | cons b bs =>
          rw [step_parser hc hsched hrx, step_parser (s := s.setK k) hc hsched hrx]
          exact exec_setK (by rw [agent_decodeCmdByte]; decide) { s with sched := ts, cmdRx := bs } k
  · rw [step_inside hc, step_inside (s := s.setK k) hc]
    exact runCalls_map (f := (·.setK k)) (fun _ => rfl) (fun i s hi => exec_setK (by rw [hi]; decide) s k) s.calls
      { s with calls := [] }

/-- A step that is no parser turn does the same whatever `P` is. -/
theorem step_setP (hs : ∀ ts, s.sched ≠ .parser :: ts) (p : Parser) : step (s.setP p) = mapNext (·.setP p) (step s) := by
  by_cases hc : s.calls = []
  · cases hsched : s.sched with
    | nil => rw [step_idle hc hsched, step_idle (s := s.setP p) hc hsched]; rfl
    | cons u ts =>
      cases u with
      | parser => exact absurd hsched (hs ts)
      | outside e => rw [step_outside hc hsched, step_outside (s := s.setP p) hc hsched]; rfl
      | decoder =>
        cases hrx : s.kissRx with
        | nil => rw [step_decoder_empty hc hsched hrx, step_decoder_empty (s := s.setP p) hc hsched hrx]; rfl
        | cons b bs =>
          rw [step_decoder hc hsched hrx, step_decoder (s := s.setP p) hc hsched hrx]
          exact exec_setP (by rw [agent_decodeKissByte]; decide) { s with sched := ts, kissRx := bs } p
  · rw [step_inside hc, step_inside (s := s.setP p) hc]
    exact runCalls_map (f := (·.setP p)) (fun _ => rfl) (fun i s hi => exec_setP (by rw [hi]; decide) s p) s.calls
      { s with calls := [] }

/-- So it leaves `K` as it was: putting back the `K` there was changes nothing. -/
theorem step_keeps_k (hs : ∀ ts, s.sched ≠ .decoder :: ts) (h : step s = .next t) : t.k = s.k := by
  have hsame := step_setK hs s.k
  rw [show s.setK s.k = s from rfl, h] at hsame
  have ht : t = t.setK s.k := Host.Outcome.next.inj hsame
  rw [ht, State.setK_k]

/-- And one leaves `P` as it was. -/
theorem step_keeps_p (hs : ∀ ts, s.sched ≠ .parser :: ts) (h : step s = .next t) : t.p = s.p := by
  have hsame := step_setP hs s.p
  rw [show s.setP s.p = s from rfl, h] at hsame
  have ht : t = t.setP s.p := Host.Outcome.next.inj hsame
  rw [ht, State.setP_p]

/-- Settles O59: a parser turn is no decoder turn, and the other way round. -/
theorem agentsShareNothing : Obligations.AgentsShareNothing := by
  intro s t ts h
  refine ⟨fun hs => ?parser, fun hs => ?decoder, fun hs => step_keeps_p hs h, fun hs => step_keeps_k hs h⟩
  case parser =>
    have hne : ∀ ts', s.sched ≠ .decoder :: ts' := fun _ => by rw [hs]; nofun
    exact ⟨step_keeps_k hne h, fun k => (step_setK hne k).trans (by rw [h]; rfl)⟩
  case decoder =>
    have hne : ∀ ts', s.sched ≠ .parser :: ts' := fun _ => by rw [hs]; nofun
    exact ⟨step_keeps_p hne h, fun p => (step_setP hne p).trans (by rw [h]; rfl)⟩

end Sys2Proof.Machine
end

section
/-! PROOFS. The checksum in closed form (R92, R94, R180), the update (R90), and the serial emission (R183). -/

namespace Sys2Proof.Machine

variable {cfg : Config}

/-! ## The high half -/

/-- The sum of bytes, as a number. -/
theorem toNat_sum (s : List Byte) : s.sum.toNat = (s.map BitVec.toNat).sum % 256 := by
  induction s with
  | nil => rfl
  | cons c s ih => rw [List.sum_cons, List.map_cons, List.sum_cons, BitVec.toNat_add, ih, Nat.add_mod_mod]

theorem hi_fletcher (cfg : Config) (s : List Byte) : hi (fletcher cfg s) = hi cfg.seed + s.sum := hi_foldl cfg s cfg.seed

/-- Settles O38: the high half is the sum of the bytes, and a sum with one summand changed is another sum. -/
theorem singleByteChangeIsDetected : Obligations.SingleByteChangeIsDetected := by
  intro cfg before after x y hxy h
  simp only [hi_fletcher, List.sum_append, List.sum_cons] at h
  exact hxy (by simpa using h)

/-! ## The low half -/

/-- `n*c1 + (n-1)*c2 + ... + 1*cn` (R92). -/
def weighted : List Byte → Nat
  | [] => 0
  | c :: s => (s.length + 1) * c.toNat + weighted s

theorem weighted_eq_sum (s : List Byte) :
    weighted s = ((List.range s.length).map fun i => (s.length - i) * (s.getD i 0).toNat).sum := by
  induction s with
  | nil => rfl
  | cons c s ih =>
    rw [weighted, ih, List.length_cons, List.range_succ_eq_map, List.map_cons, List.sum_cons, List.map_map]
    simp [Function.comp_def]

/-- The low half of a fold: every byte folded adds the high half it makes, so the accumulator's high half counts once per byte
and each byte once for itself and once per byte after it. -/
theorem lo_foldl (h : cfg.checksum = .newHigh) (s : List Byte) (acc : Half) :
    (lo (s.foldl (fStep cfg) acc)).toNat = ((lo acc).toNat + s.length * (hi acc).toNat + weighted s) % 256 := by
  induction s generalizing acc with
  | nil =>
    have := (lo acc).isLt
    simp [weighted, Nat.mod_eq_of_lt this]
  | cons c s ih =>
    rw [List.foldl_cons, ih, lo_fStep_newHigh h, hi_fStep]
    simp only [BitVec.toNat_add, weighted, List.length_cons]
    set l := (lo acc).toNat
    set x := (hi acc).toNat + c.toNat with hx
    have wraps : (l + x % 256) % 256 + s.length * (x % 256) + weighted s ≡ l + x + s.length * x + weighted s [MOD 256] :=
      .add_right _ (.add ((Nat.mod_modEq _ _).trans ((Nat.mod_modEq _ _).add_left l)) ((Nat.mod_modEq _ _).mul_left _))
    calc ((l + x % 256) % 256 + s.length * (x % 256) + weighted s) % 256
        = (l + x + s.length * x + weighted s) % 256 := wraps
      _ = (l + (s.length + 1) * (hi acc).toNat + ((s.length + 1) * c.toNat + weighted s)) % 256 := by
        rw [hx]
        ring_nf

/-- Settles O37: from the seed zero the accumulator contributes nothing to either half. -/
theorem checksumClosedForm : Obligations.ChecksumClosedForm := by
  intro cfg s hwf h
  have hseed := (Config.good_of_wf hwf).seed_zero
  constructor
  · rw [hi_fletcher, hseed, ← toNat_sum]
    simp [hi]
  · rw [fletcher, lo_foldl h, hseed, ← weighted_eq_sum]
    simp [hi, lo]

/-- Settles O33: the status byte is folded first, into an accumulator of zero, so it stands in both halves before the other
`2 + len(q)` bytes of the body, each of which adds it to the low half once more. -/
theorem statusByteMovesBothChecksumBytes : Obligations.StatusByteMovesBothChecksumBytes := by
  intro cfg st c q hwf h hstatus
  have hseed := (Config.good_of_wf hwf).seed_zero
  have hbody : ∀ x, replyBody cfg x c q = x :: ([replyCmd cfg c, lenByte q] ++ q) := fun x => by
    simp [replyBody, statusHead, hstatus]
  rw [hbody, hbody]
  constructor
  · simp only [hi_fletcher, List.sum_cons]
    ring
  · simp only [fletcher, lo_foldl h, weighted, hseed, Nat.mod_add_mod]
    simp only [List.length_append, List.length_cons, List.length_nil, BitVec.ofNat_eq_ofNat, BitVec.toNat_ofNat]
    ring_nf

/-! ## The update and the serial emission -/

theorem exec_f (acc : Half) (c : Byte) (s : State) :
    exec (.f acc c) s = .next { s with engineOut := fStep s.cfg acc c, event := .none } := rfl

/-- Settles O35: the halves of one update, as numbers. -/
theorem checksumUpdateRule : Obligations.ChecksumUpdateRule := by
  intro s acc c
  refine ⟨fStep s.cfg acc c, exec_f acc c s, ?_, fun h => ?_, fun h => ?_⟩
  · rw [hi_fStep, BitVec.toNat_add]
  · rw [lo_fStep_newHigh h, hi_fStep, BitVec.toNat_add]
  · rw [lo_fStep_oldHigh h, BitVec.toNat_add]

/-- The body loop emits the body and ends with its fold (R183). -/
theorem serialBody_eq (cfg : Config) (acc : Half) (body : List Byte) :
    serialBody cfg acc body = (body, body.foldl (fStep cfg) acc) := by
  induction body generalizing acc with
  | nil => rfl
  | cons x xs ih => rw [serialBody, ih, List.foldl_cons]

/-- Settles O32: the transient accumulator ends as the checksum of the body (`serialBody_eq`). -/
theorem serialEmissionIsTheFrame : Obligations.SerialEmissionIsTheFrame := by
  intro cfg body
  rw [serialEmit, serialBody_eq]
  rfl

end Sys2Proof.Machine
end

section
/-! PROOFS. The KISS encoder (R100 to R103): its operations one after the other spell `KENC`, the delimiter stands at the ends
alone, and no two payloads share a frame. -/

namespace Sys2Proof.Machine

variable {cfg : Config} {b c : Byte} {p q : List Byte}

/-! ## The operations -/

theorem exec_kencOpen (s : State) : exec .kencOpen s = .next ((s.emitKiss (kencStart s.cfg)).setEvent .none) := rfl

theorem exec_kencClose (s : State) : exec .kencClose s = .next ((s.emitKiss (kencEnd s.cfg)).setEvent .none) := rfl

/-- Settles O40: each operation emits its bytes, with the event NONE. -/
theorem encoderOpenAndCloseRule : Obligations.EncoderOpenAndCloseRule := by
  intro s
  rw [exec_kencOpen, exec_kencClose, State.setEvent_none_emitKiss, State.setEvent_none_emitKiss]
  exact ⟨rfl, rfl⟩

/-- `KENC_BYTE` emits `KESC` of its byte, whichever of its three rows reads it (R101, R102). -/
theorem decodeCall_kencByte (s : State) (b : Byte) :
    ∃ i, decodeCall s.cfg (.kencByte b) = .ok i ∧
      exec i s = .next ((s.emitKiss (kesc s.cfg b)).setEvent .none) := by
  refine ⟨_, rfl, ?_⟩
  split_ifs with hfend hfesc
  · rw [hfend]
    exact exec_kescFend s
  · rw [hfesc]
    exact exec_kescFesc s
  · exact exec_kescLiteral b s

/-- Two emissions are one of both. -/
theorem State.emitKiss_emitKiss (s : State) (bs bs' : List Byte) (e e' : Event) :
    (((s.emitKiss bs).setEvent e).emitKiss bs').setEvent e' = (s.emitKiss (bs ++ bs')).setEvent e' := by
  simp [State.emitKiss, State.setEvent]

/-- The payload bytes and the end of a frame, asked for one after the other. -/
theorem runCalls_kencBytes (s : State) (p : List Byte) :
    runCalls (p.map .kencByte ++ [.kencEnd]) s =
      .next ((s.emitKiss (p.flatMap (kesc s.cfg) ++ kencEnd s.cfg)).setEvent .none) := by
  induction p generalizing s with
  | nil => exact (runCalls_single (i := .kencClose) rfl).trans (exec_kencClose s)
  | cons b p ih =>
    obtain ⟨i, hi, hx⟩ := decodeCall_kencByte s b
    rw [List.map_cons, List.cons_append, runCalls_cons hi hx, ih, State.emitKiss_emitKiss, List.flatMap_cons,
      List.append_assoc]
    rfl

/-- Settles O41: the start, then the payload bytes and the end by `runCalls_kencBytes`. -/
theorem encoderOperationsSpellTheFrame : Obligations.EncoderOperationsSpellTheFrame := by
  intro s p hcalls
  rw [step_inside (by rw [hcalls]; nofun), hcalls, List.cons_append, runCalls_cons rfl (exec_kencOpen _),
    runCalls_kencBytes, State.emitKiss_emitKiss]
  rfl

/-! ## The encoded frame -/

/-- R101: no byte is encoded with the delimiter, and the two special bytes take one byte more. -/
theorem count_fend_kesc (g : cfg.Good) (b : Byte) : (kesc cfg b).count cfg.fend = 0 := by
  by_cases hfend : b = cfg.fend
  · simp [hfend, g.fend_fesc.symm, g.fend_tfend.symm]
  by_cases hfesc : b = cfg.fesc
  · simp [hfesc, kesc_fesc g.fend_fesc, g.fend_fesc.symm, g.fend_tfesc.symm]
  · simp [kesc_literal hfend hfesc, hfend]

theorem length_kesc (cfg : Config) (b : Byte) :
    (kesc cfg b).length = 1 + if b = cfg.fend ∨ b = cfg.fesc then 1 else 0 := by
  unfold kesc
  split_ifs <;> simp_all

theorem length_flatMap_kesc (cfg : Config) (p : List Byte) :
    (p.flatMap (kesc cfg)).length = p.length + p.countP (fun b => b = cfg.fend ∨ b = cfg.fesc) := by
  induction p with
  | nil => rfl
  | cons b p ih =>
    rw [List.flatMap_cons, List.length_append, length_kesc, ih, List.countP_cons, List.length_cons]
    simp only [decide_eq_true_eq]
    omega

/-- Settles O42: the encoded payload has no delimiter, and each special byte in it takes one byte more. -/
theorem encodedFrameShape : Obligations.EncodedFrameShape := by
  intro cfg p hwf
  have g := Config.good_of_wf hwf
  have hcount : (p.flatMap (kesc cfg)).count cfg.fend = 0 := by
    simp [List.count_flatMap, Function.comp_def, count_fend_kesc g]
  refine ⟨?_, rfl, ?_, ?_⟩
  · simp [kenc, kencStart, kencEnd, hcount, g.data_fend]
  · simp [kenc, kencEnd]
  · simp only [kenc, kencStart, kencEnd, List.length_append, length_flatMap_kesc, List.length_cons, List.length_nil]
    omega

/-- The encodings of the bytes are told apart from the front (R101): the first byte says whether one more belongs to it, and
that one which byte it stands for. -/
theorem kesc_append_inj (g : cfg.Good) (h : kesc cfg b ++ p = kesc cfg c ++ q) : b = c ∧ p = q := by
  unfold kesc at h
  have := g.fend_fesc
  have := g.tfend_tfesc
  split_ifs at h <;> simp_all

theorem kesc_ne_nil (cfg : Config) (b : Byte) : kesc cfg b ≠ [] := by
  intro h
  have := length_kesc cfg b
  rw [h, List.length_nil] at this
  omega

theorem flatMap_kesc_inj (g : cfg.Good) (h : p.flatMap (kesc cfg) = q.flatMap (kesc cfg)) : p = q := by
  induction p generalizing q with
  | nil =>
    cases q with
    | nil => rfl
    | cons c q => simp [kesc_ne_nil] at h
  | cons b p ih =>
    cases q with
    | nil => simp [kesc_ne_nil] at h
    | cons c q =>
      obtain ⟨rfl, htail⟩ := kesc_append_inj g h
      rw [ih htail]

/-- Settles O43: the ends of the two frames are the same, and what stands between them is read back byte by byte. -/
theorem encodingIsInjective : Obligations.EncodingIsInjective := by
  intro cfg p q hwf h
  simp only [kenc, List.append_assoc, List.append_cancel_left_eq, List.append_cancel_right_eq] at h
  exact flatMap_kesc_inj (Config.good_of_wf hwf) h

end Sys2Proof.Machine
end

section
/-! PROOFS. The parser's and the commands' rules of one instruction: acceptance, length, errors (R133, R134, R137, R201), and
what each command's contract fixes at its dispatch (R160 to R174). Every dispatch is `exec_chklo_dispatch`, and its outputs
are those of one handler call. -/

namespace Sys2Proof.Machine

variable {s : State} {b : Byte} {c : Command}

/-! ## The parser -/

/-- Settles O12: the thirteen rows share one meaning (`exec_command`). -/
theorem commandBytesAreAccepted : Obligations.CommandBytesAreAccepted := fun s c =>
  ⟨by cases c <;> simp [Command.instr], exec_command c s⟩

/-- What an error entry leaves (R201). -/
theorem State.raise_eq (s : State) (x : ErrorKind) :
    s.raise x = { s with
      p := { st := .sync0, cmd := 0, len := 0, idx := 0, computed := 0, rx := 0, buf := s.p.buf },
      cmdTx := s.cmdTx ++ errReplyFrame s.cfg s.env.status (s.cfg.errCode x), event := .error (s.cfg.errCode x) } := rfl

theorem exec_len_admitted (hc : s.cfg.command? s.p.cmd = some c) (hv : validLen s.cfg c b = true) :
    exec (.len b) s =
      .next { s with
        p := { s.p with computed := fStep s.cfg s.p.computed b, len := b, idx := 0,
                        st := if b = 0 then .chkHi else .payload },
        event := .none } := by
  rw [exec_len hc, if_pos hv]

theorem exec_len_refused (hc : s.cfg.command? s.p.cmd = some c) (hv : validLen s.cfg c b = false) :
    exec (.len b) s = .next (s.raise .invalidLen) := by
  rw [exec_len hc, if_neg (by rw [hv]; simp)]

theorem exec_invalidCmd (b : Byte) (s : State) : exec (.invalidCmd b) s = .next (s.raise .invalidCmd) := rfl

/-- Settles O13: the two branches of the length rule, the refused one an error entry. -/
theorem lengthByteRule : Obligations.LengthByteRule := fun _ _ _ hc =>
  ⟨exec_len_admitted hc, fun hv => ⟨_, exec_len_refused hc hv, rfl, rfl, rfl⟩⟩

/-- Settles O18: each of the three errors is the one error entry (R201). -/
theorem errorEntry : Obligations.ErrorEntry := by
  rintro s b i code (⟨rfl, rfl⟩ | ⟨rfl, rfl, c, hc, hv⟩ | ⟨rfl, rfl, hsum⟩)
  · rw [exec_invalidCmd, State.raise_eq]
    rfl
  · rw [exec_len_refused hc hv, State.raise_eq]
    rfl
  · rw [exec_chklo_of_ne hsum, State.raise_eq]
    rfl

/-- Settles O16: a matching checksum is a dispatch, any other an error entry, and both reset the parser. -/
theorem lowChecksumByteRule : Obligations.LowChecksumByteRule := fun _ _ _ hc hl =>
  ⟨fun hsum => ⟨_, exec_chklo_dispatch hc hl hsum, by simp, by simp [Memory.pbufBytes], by simp [Memory.pbufBytes]⟩,
    fun hsum => ⟨_, exec_chklo_of_ne hsum, rfl, rfl, rfl, rfl⟩⟩

/-! ## A dispatch -/

/-- What a dispatch leaves, field by field: `P` cleared but for `PBUF`, the dispatch recorded, and the environment and outputs
of one handler call. -/
structure Dispatches (s t : State) (c : Command) (q : List Byte) (h : Handled) : Prop where
  p : t.p = { st := .sync0, cmd := 0, len := 0, idx := 0, computed := 0, rx := 0, buf := s.p.buf }
  k : t.k = s.k
  given : t.given = s.given
  engineOut : t.engineOut = s.engineOut
  dispatches : t.dispatches = s.dispatches ++ [⟨s.p.cmd, s.p.len, q⟩]
  env : t.env = h.env
  kissTx : t.kissTx = s.kissTx ++ h.tx.flatten
  cmdTx : t.cmdTx = s.cmdTx ++ replyBytes s.cfg c h

/-- The low checksum byte of a good frame is a dispatch of the payload copied out of `PBUF` (R137, R173). -/
theorem exec_chklo_dispatches (hc : s.cfg.command? s.p.cmd = some c) (hl : s.p.len.toNat ≤ s.cfg.maxPayload)
    (hsum : cat (hi s.p.rx) b = s.p.computed) :
    ∃ t, exec (.chklo b) s = .next t ∧
      Dispatches s t c (s.p.buf.pbufBytes s.p.len.toNat)
        (handler s.cfg c (s.p.buf.pbufBytes s.p.len.toNat) s.env s.response) := by
  refine ⟨_, exec_chklo_dispatch hc hl hsum, ?_⟩
  constructor
  case p => simp [Parser.preset]
  case given => exact State.given_handle c _
  all_goals simp

/-- Settles O17: the fields of a dispatch, with the handler call it makes (`exec_chklo_dispatches`). -/
theorem dispatchFrame : Obligations.DispatchFrame := by
  intro s b c hc hl hsum
  obtain ⟨t, hx, ht⟩ := exec_chklo_dispatches hc hl hsum
  obtain ⟨hcfg, hcmdRx, hkissRx, hsched, hcalls⟩ := State.given_eq_iff.mp ht.given
  exact ⟨t, _, hx, rfl, ht.p, ht.k, hcfg, hcmdRx, hkissRx, hsched, hcalls, ht.engineOut, ht.env, ht.kissTx, ht.cmdTx⟩

/-- Settles O27: the dispatch goes on; its reply is one of three (`replyBytes_cases`) and its `TX` items are KISS frames
(`handler_tx`). -/
theorem everyDispatchSendsAtMostOneReply : Obligations.EveryDispatchSendsAtMostOneReply := by
  intro s b c hc hl hsum
  obtain ⟨t, hx, ht⟩ := exec_chklo_dispatches hc hl hsum
  have hcmd := ht.cmdTx
  have hkiss := ht.kissTx
  obtain ⟨ps, hps⟩ := handler_tx s.cfg c (s.p.buf.pbufBytes s.p.len.toNat) s.env s.response
  refine ⟨t, hx, ?_, ps, by rw [hkiss, hps, List.flatMap_def]⟩
  obtain hr | ⟨st, q, hq, hr⟩ | ⟨st, e, hr⟩ :=
    replyBytes_cases s.cfg c (handler s.cfg c (s.p.buf.pbufBytes s.p.len.toNat) s.env s.response)
  · rw [hr, List.append_nil] at hcmd
    exact .inl hcmd
  · rw [hr] at hcmd
    exact .inr (.inl ⟨st, q, hq, hcmd⟩)
  · rw [hr] at hcmd
    exact .inr (.inr ⟨st, e, hcmd⟩)

/-! ## What the contracts fix -/

theorem replyBytes_of_success {cfg : Config} {h : Handled} {q : Payload} (hr : h.reply = some (.success q)) :
    replyBytes cfg c h = replyFrame cfg h.replyStatus (cfg.id c) q.val := by
  rw [replyBytes, hr]

theorem replyBytes_of_failure {cfg : Config} {h : Handled} {e : ErrorKind} (hr : h.reply = some (.failure e)) :
    replyBytes cfg c h = errReplyFrame cfg h.replyStatus (cfg.errCode e) := by
  rw [replyBytes, hr]

/-- A handler that answers with a payload, when it does not fail (R174). -/
theorem answered_of_none {cfg : Config} {e : Env} {r : Response} {q : Payload} (h : r.failure = none) :
    answered cfg e r q =
      { env := e, replyStatus := r.replyStatus, reply := some (.success q), tx := txFrames cfg r } := by
  simp only [answered, openHandled, h]

theorem answered_of_some {cfg : Config} {e : Env} {r : Response} {q : Payload} {k : ErrorKind} (h : r.failure = some k) :
    answered cfg e r q = failed cfg r k := by
  simp only [answered, h]

theorem txFrames_flatten (cfg : Config) (r : Response) : (txFrames cfg r).flatten = r.tx.flatMap (kenc cfg) := by
  rw [txFrames, List.flatMap_def]

/-- The two bytes of a 16-bit payload spell its value (R44). -/
theorem halfPayload_value (v : Half) : (hi v).toNat * 256 + (lo v).toNat = v.toNat := by
  rw [← toNat_cat, cat_hi_lo]

/-- Settles O21: the handler of `NOP` answers with the empty success, whatever the answer taken is. -/
theorem nopAlwaysSucceeds : Obligations.NopAlwaysSucceeds := by
  intro s b hc hl hsum
  obtain ⟨t, hx, ht⟩ := exec_chklo_dispatches hc hl hsum
  refine ⟨t, s.response.replyStatus, hx, ?_, ?_, ?_⟩
  · rw [ht.cmdTx, replyBytes_of_success rfl]
    rfl
  · rw [ht.kissTx]
    exact List.append_nil _
  · rw [ht.env]
    rfl

/-- Settles O22: the handler of `RESET` has no reply. -/
theorem resetCommandSendsNoReply : Obligations.ResetCommandSendsNoReply := by
  intro s b hc hl hsum
  obtain ⟨t, hx, ht⟩ := exec_chklo_dispatches hc hl hsum
  exact ⟨t, hx, by rw [ht.cmdTx]; exact List.append_nil _, ht.k, ht.dispatches⟩

/-- The dispatch of a command whose handler answers with a payload: its success reply, or one error reply; environment and
frames are the answer's. -/
theorem exec_chklo_answered {e : Env} {q : Payload} (hc : s.cfg.command? s.p.cmd = some c)
    (hl : s.p.len.toNat ≤ s.cfg.maxPayload) (hsum : cat (hi s.p.rx) b = s.p.computed)
    (hh : handler s.cfg c (s.p.buf.pbufBytes s.p.len.toNat) s.env s.response = answered s.cfg e s.response q) :
    ∃ t, exec (.chklo b) s = .next t ∧ t.kissTx = s.kissTx ++ s.response.tx.flatMap (kenc s.cfg) ∧
      (s.response.failure = none → t.env = e ∧
        t.cmdTx = s.cmdTx ++ replyFrame s.cfg s.response.replyStatus (s.cfg.id c) q.val) ∧
      ∀ k, s.response.failure = some k → t.env = s.response.env ∧
        t.cmdTx = s.cmdTx ++ errReplyFrame s.cfg s.response.replyStatus (s.cfg.errCode k) := by
  obtain ⟨t, hx, ht⟩ := exec_chklo_dispatches hc hl hsum
  rw [hh] at ht
  refine ⟨t, hx, ?_, fun hf => ?_, fun k hf => ?_⟩
  · rw [ht.kissTx]
    cases hf : s.response.failure with
    | none => rw [answered_of_none hf, txFrames_flatten]
    | some k => rw [answered_of_some hf, failed, txFrames_flatten]
  · rw [answered_of_none hf] at ht
    exact ⟨ht.env, by rw [ht.cmdTx, replyBytes_of_success rfl]⟩
  · rw [answered_of_some hf] at ht
    exact ⟨ht.env, by rw [ht.cmdTx, replyBytes_of_failure rfl]; rfl⟩

/-- Settles O23: both handlers answer with the two bytes of a value of the environment, high byte first. -/
theorem readingCommandsReplyBigEndian : Obligations.ReadingCommandsReplyBigEndian := by
  intro s b hl hsum
  refine ⟨fun hc hf => ?power, fun hc hf => ?depth, fun c k hmem hc hf => ?failing⟩
  case power =>
    obtain ⟨t, hx, hkiss, hok, -⟩ := exec_chklo_answered (q := halfPayload s.env.power) hc hl hsum rfl
    exact ⟨t, s.response.replyStatus, hi s.env.power, lo s.env.power, hx, halfPayload_value _, (hok hf).2, (hok hf).1, hkiss⟩
  case depth =>
    obtain ⟨t, hx, hkiss, hok, -⟩ := exec_chklo_answered (q := halfPayload s.env.depth) hc hl hsum rfl
    exact ⟨t, s.response.replyStatus, hi s.env.depth, lo s.env.depth, hx, halfPayload_value _, (hok hf).2, (hok hf).1, hkiss⟩
  case failing =>
    have hh : ∃ q, handler s.cfg c (s.p.buf.pbufBytes s.p.len.toNat) s.env s.response =
        answered s.cfg s.response.env s.response q := by
      obtain rfl | rfl : c = .readTxpwr ∨ c = .getQueueDepth := by simpa using hmem
      · exact ⟨halfPayload s.env.power, rfl⟩
      · exact ⟨halfPayload s.env.depth, rfl⟩
    obtain ⟨q, hq⟩ := hh
    obtain ⟨t, hx, hkiss, -, hfail⟩ := exec_chklo_answered hc hl hsum hq
    exact ⟨t, s.response.replyStatus, hx, (hfail k hf).2, (hfail k hf).1, hkiss⟩

/-- Settles O24: the operand is the two bytes of the payload, which fit a half. -/
theorem setTxpwrStoresItsOperand : Obligations.SetTxpwrStoresItsOperand := by
  intro s b hc hlen hmax hsum hf
  have hl : s.p.len.toNat ≤ s.cfg.maxPayload := by rw [hlen]; exact hmax
  obtain ⟨t, hx, hkiss, hok, -⟩ := exec_chklo_answered
    (e := { s.response.env with power := beHalf (s.p.buf.pbufBytes s.p.len.toNat) }) hc hl hsum rfl
  obtain ⟨henv, hcmd⟩ := hok hf
  refine ⟨t, s.response.replyStatus, hx, ?_, by rw [henv], hcmd, hkiss⟩
  have h0 := (s.p.buf.readPbuf 0).isLt
  have h1 := (s.p.buf.readPbuf 1).isLt
  have hbytes : s.p.buf.pbufBytes s.p.len.toNat = [s.p.buf.readPbuf 0, s.p.buf.readPbuf 1] := by rw [hlen]; rfl
  rw [henv, hbytes]
  simp only [beHalf, beValue, List.foldl_cons, List.foldl_nil, BitVec.toNat_ofNat]
  omega

/-- Settles O25: the operand is the four bytes of the payload, which fit 32 bits. -/
theorem setFreqStoresItsOperand : Obligations.SetFreqStoresItsOperand := by
  intro s b hc hlen hmax hsum hf
  have hl : s.p.len.toNat ≤ s.cfg.maxPayload := by rw [hlen]; exact hmax
  obtain ⟨t, hx, ht⟩ := exec_chklo_dispatches hc hl hsum
  have henv : t.env.freq = beWord (s.p.buf.pbufBytes s.p.len.toNat) := by
    rw [ht.env]
    simp only [handler, handleSetFreq, hf]
  refine ⟨t, hx, ?_⟩
  have h0 := (s.p.buf.readPbuf 0).isLt
  have h1 := (s.p.buf.readPbuf 1).isLt
  have h2 := (s.p.buf.readPbuf 2).isLt
  have h3 := (s.p.buf.readPbuf 3).isLt
  have hbytes : s.p.buf.pbufBytes s.p.len.toNat =
      [s.p.buf.readPbuf 0, s.p.buf.readPbuf 1, s.p.buf.readPbuf 2, s.p.buf.readPbuf 3] := by rw [hlen]; rfl
  rw [henv, hbytes]
  simp only [beWord, beValue, List.foldl_cons, List.foldl_nil, BitVec.toNat_ofNat]
  omega

/-- Settles O26: the last frame of a handler that transmits is `KENC` of the payload. -/
theorem txdataTransmitsItsPayload : Obligations.TxdataTransmitsItsPayload := by
  intro s b hc hl hsum hf htrans
  obtain ⟨t, hx, ht⟩ := exec_chklo_dispatches hc hl hsum
  refine ⟨t, (txFrames s.cfg s.response).flatten, hx, ?_⟩
  rw [ht.kissTx]
  simp [handler, handleTxdata, hf, htrans, Memory.pbufBytes]

end Sys2Proof.Machine
end

section
/-! PROOFS. The KISS decoder's rules of one instruction (R111 to R118), what is refused and what faults, and the fixed values of
the table and of reset. -/

namespace Sys2Proof.Machine

variable {s : State} {b v : Byte} {k : Kiss}

/-! ## Bytes that store nothing -/

theorem exec_fendPad (s : State) : exec .fendPad s = .next ((s.setK s.k.clearFlags).setEvent .none) := rfl

theorem exec_kdrop (b : Byte) (s : State) : exec (.kdrop b) s = .next (s.setEvent .none) := rfl

theorem exec_fesc (s : State) : exec .fesc s = .next ((s.setK (s.k.setEsc true)).setEvent .none) := rfl

/-- Settles O44: each of the three rows is one update of the flags, or none. -/
theorem paddingDropAndEscapeRule : Obligations.PaddingDropAndEscapeRule := fun s b =>
  ⟨exec_fendPad s, exec_kdrop b s, exec_fesc s⟩

/-! ## Bytes that are stored -/

/-- R117 with room: the byte is stored at the length and nowhere else. -/
theorem State.append_stores (h : k.len < s.cfg.kissCap) :
    ∃ m : Memory,
      s.append k v = .next { s with k := { k with buf := m, len := k.len + 1 }, event := .none } ∧
      m.readKbuf k.len = v ∧ ∀ a, a ≠ k.len → m.readKbuf a = k.buf.readKbuf a :=
  ⟨k.buf.write k.len v, State.append_room h, Memory.readKbuf_write_self, fun _ ha => Memory.readKbuf_write_ne ha.symm⟩

/-- R117 on a full buffer: the byte is lost with the frame. -/
theorem State.append_overflows (h : k.len = s.cfg.kissCap) :
    s.append k v = .next { s with k := { k with len := 0, drop := true }, event := .kerr .overflow } :=
  State.append_full h

theorem exec_tfend (s : State) : exec .tfend s = s.append (s.k.setEsc false) s.cfg.fend := rfl

theorem exec_tfesc (s : State) : exec .tfesc s = s.append (s.k.setEsc false) s.cfg.fesc := rfl

theorem exec_kdata (b : Byte) (s : State) : exec (.kdata b) s = s.append s.k b := rfl

theorem exec_kissCmdData (s : State) : exec .kissCmdData s = s.append s.k s.cfg.kissCmdData := rfl

/-- Settles O46: both codes append their literal to a `K` whose escape flag is cleared. -/
theorem transposedCodeRule : Obligations.TransposedCodeRule := by
  intro s b
  refine ⟨fun hlt i v hi => ?room, fun hfull i hi => ?full, rfl⟩
  case room =>
    obtain ⟨rfl, rfl⟩ | ⟨rfl, rfl⟩ := hi
    · rw [exec_tfend]
      exact State.append_stores (k := s.k.setEsc false) hlt
    · rw [exec_tfesc]
      exact State.append_stores (k := s.k.setEsc false) hlt
  case full =>
    obtain rfl | rfl : i = .tfend ∨ i = .tfesc := by simpa using hi
    · rw [exec_tfend]
      exact State.append_overflows (k := s.k.setEsc false) hfull
    · rw [exec_tfesc]
      exact State.append_overflows (k := s.k.setEsc false) hfull

/-- Settles O47: both rows append their byte to `K` as it is. -/
theorem appendRule : Obligations.AppendRule := by
  intro s i v hi
  have happend : exec i s = s.append s.k v := by
    obtain rfl | ⟨rfl, rfl⟩ := hi
    · exact exec_kdata v s
    · exact exec_kissCmdData s
  rw [happend]
  exact ⟨State.append_stores, State.append_overflows⟩

/-! ## The end of a frame -/

theorem exec_fendEnd (s : State) : exec .fendEnd s = execFendEnd s := rfl

/-- A frame that ends well is delivered (R112, R118). -/
theorem execFendEnd_delivers (hcap : s.k.len ≤ s.cfg.kissCap) (hesc : s.k.esc = false)
    (hcmd : s.k.buf.readKbuf 0 = s.cfg.kissCmdData) :
    execFendEnd s = s.deliverFrame (s.k.buf.kbufPayload s.k.len) := by
  rw [execFendEnd_eq hcap, hesc, hcmd]
  simp

/-- Settles O45: the three outcomes are the three branches of `execFendEnd_eq`, and a payload of at most 255 bytes is sent. -/
theorem endOfFrameRule : Obligations.EndOfFrameRule := by
  intro s hcap
  rw [exec_fendEnd]
  refine ⟨fun hesc => ?dangling, fun hesc hcmd => ?badCmd, fun hesc hcmd hlen => ?good⟩
  case dangling =>
    rw [execFendEnd_eq hcap, if_pos hesc]
    rfl
  case badCmd =>
    rw [execFendEnd_eq hcap, hesc, if_pos hcmd]
    rfl
  case good =>
    have hq : (s.k.buf.kbufPayload s.k.len).length ≤ 255 := by
      rw [Memory.length_kbufPayload]
      omega
    exact ⟨s.k.buf.kbufPayload s.k.len, rfl, (execFendEnd_delivers hcap hesc hcmd).trans (State.sendReply_short hq)⟩

/-! ## Stops -/

/-- Settles O31: each of the three asks for a reply that `sendReply` refuses. -/
theorem overlongRepliesAreRefused : Obligations.OverlongRepliesAreRefused := by
  intro s c q
  refine ⟨fun hq => ⟨State.sendReply_long hq, State.sendReply_long hq⟩, fun hlen hcap hesc hcmd => ?_⟩
  have hq : 255 < (s.k.buf.kbufPayload s.k.len).length := by
    rw [Memory.length_kbufPayload]
    omega
  rw [exec_fendEnd, execFendEnd_delivers hcap hesc hcmd, State.deliverFrame_long hq]

theorem exec_payload_beyond (h : s.cfg.maxPayload ≤ s.p.idx.toNat) : exec (.payload b) s = .fault .pbufIndex :=
  if_neg (Nat.not_lt.mpr h)

theorem exec_len_unlisted (h : s.cfg.command? s.p.cmd = none) : exec (.len b) s = .fault .unlistedCommand := by
  simp only [exec, execLen, h]

/-- Settles O20: the four rows that append fault as `APPEND` does. -/
theorem outOfBoundsFaults : Obligations.OutOfBoundsFaults := fun s _ =>
  ⟨exec_payload_beyond,
    fun h => ⟨State.append_beyond h, State.append_beyond (k := s.k.setEsc false) h,
      State.append_beyond (k := s.k.setEsc false) h, State.append_beyond h, execFendEnd_beyond h⟩,
    exec_len_unlisted⟩

/-! ## Fixed values -/

/-- Settles O1: each word is decoded by evaluation under the one fixed configuration. -/
theorem tableWordsDecodeToTheirRows : Obligations.TableWordsDecodeToTheirRows := by
  unfold Obligations.TableWordsDecodeToTheirRows
  decide

/-- Settles O54: each clause is a field of the record `State.created` builds. -/
theorem resetValues : Obligations.ResetValues := by
  rintro cfg env s rfl
  exact ⟨rfl, rfl, rfl, rfl, rfl, rfl, rfl, rfl, rfl⟩

end Sys2Proof.Machine
end
